-- ==== Sys2Proof/Word.lean ====
section
/-! DEFINITION. The word types of the block (00_scope R8 to R12) and the sparse maps its state is held in. -/
namespace Sys2Proof

/-- One byte of a memory, a message or a host structure (R11). -/
abbrev Byte := BitVec 8
/-- A half word. -/
abbrev W16 := BitVec 16
/-- The contents of a 32-bit register. -/
abbrev W32 := BitVec 32
/-- The contents of a 64-bit register; a 32-bit register stands in the low half (R12). -/
abbrev W64 := BitVec 64

/-- A sparse map: keys strictly rising, and no entry equal to what an unlisted key reads as. -/
abbrev SMap (α : Type) := List (Nat × α)

end Sys2Proof
end

