-- ==== Sys2Proof/Syntax.lean ====
section
/-! DEFINITION. The commands of the block: one constructor for each row of spec/opcode_table.json. A command is an
event or an access that reaches the device from outside (a host access, a ring command, a step or an instruction of a
named core, an arriving packet, a timed event, a pin). -/
namespace Sys2Proof

/-- The logical coordinate of a core (R23). -/
structure Coord where
  x : BitVec 7
  y : BitVec 6
deriving DecidableEq, Repr

/-- The two queues of a sequencer (R247). -/
inductive Queue where
  | main | idle
deriving DecidableEq, Repr

/-- The PCIe function that an access comes from: 0 the PF, 1 to 16 a VF (R503). -/
abbrev Fn := BitVec 5
/-- A hall, 0 to 15. -/
abbrev HallId := BitVec 4
/-- A context id (R426). -/
abbrev CtxId := BitVec 12
/-- A Garrid port, 0 to 15. -/
abbrev PortId := BitVec 4
/-- A ring number (R476). -/
abbrev RingId := BitVec 16
/-- The number of a register of a control processor. -/
abbrev RegNo := BitVec 5

/-- The answer to a read that the device makes of host memory (R492): the bytes, or a failed request. -/
inductive HostRead where
  | data (bytes : List Byte)
  | failed
deriving DecidableEq, Repr

/-- The host's answers to an ATTACH (R463, R492): the package and whether it took the bases, or a failed request of the package. -/
inductive AttachRead where
  | data (bytes : List Byte) (written : Bool)
  | failed
deriving DecidableEq, Repr

/-- The packet types of Tables 10.2 and 15.3, and a header slot whose TYPE is none of them (R516). -/
inductive PacketType where
  | msg | creditReq | creditGrant | creditRet | put | putAdd | signal | ack | nack
  | bulkRead | bulkData | lsflag | reserved
deriving DecidableEq, Repr

/-- A packet: the header of Table 10.1, the body of Table 10.2 and the data flits (R335, R336). A field that the type
does not use is 0. -/
structure Packet where
  type : PacketType
  ddev : W16
  dst : Coord
  sdev : W16
  src : Coord
  job : W16 := 0
  epoch : W16 := 0
  frame : W16 := 0
  queue : BitVec 3 := 0
  payload : W64 := 0
  count : BitVec 3 := 0
  absent : Bool := false
  dd : BitVec 6 := 0
  rtc : BitVec 4 := 0
  format : BitVec 5 := 0
  ext0 : W32 := 0
  ext1 : W32 := 0
  bytes : W32 := 0
  tile : W32 := 0
  code : W16 := 0
  xfer : W64 := 0
  offset : W64 := 0
  dest : W64 := 0
  round : BitVec 2 := 0
  flag : Bool := false
  late : Bool := false
  step : W32 := 0
  exp : Byte := 0
  data : List Byte := []
deriving DecidableEq, Repr

/-- A control slot of a Garrid link (Table 15.4); IDLE slots and PTP slots stand apart. -/
inductive ControlSlot where
  | link (ack : W16) (counts : List W16)
  | align (codeword : W32)
  | replayReq (seq : W16)
  | replayStart (seq : W16)
  | ident (id : W16) (port : BitVec 4) (lanes : BitVec 4) (degrade : Bool)
deriving DecidableEq, Repr

/-- What a step of the reset stair acts on (Table 17.1). -/
inductive ResetUnit where
  | hall (h : BitVec 4)
  | die (d : BitVec 2)
  | device
deriving DecidableEq, Repr


/-- A PTP message of IEEE 1588-2019 (R543): its messageType (0 Sync, 1 Delay_Req, 8 Follow_Up, 9 Delay_Resp), majorSdoId,
domainNumber, sequenceId, correctionField (in units of 2^-16 ns) and the seconds and nanoseconds of its timestamp. -/
structure PtpMsg where
  type : BitVec 4
  sdo : BitVec 4 := 0
  domain : Byte := 0
  seq : W16 := 0
  correction : W64 := 0
  sec : BitVec 48 := 0
  ns : W32 := 0
deriving DecidableEq, Repr

/-- What a path-delay monitor reads of a slot (19 R633, R635): its slack in ps, two's complement, and the VCORE at which the
slack equals GUARD_PS, in units of 0.25 mV. -/
structure PathReading where
  gallery : Byte
  slot : BitVec 5
  slack : W16
  vreq : W16
deriving DecidableEq, Repr

/-- What the telemetry of a millisecond gives (19 R629, R630): the input in mV and W, the energy since the last update in mJ,
the readings of sensors 0 to 29 in units of 0.0625 °C where they were read, and the voltage (in units of 0.25 mV) and the current
(in mA) of rails 0 to 33. -/
structure Telemetry where
  mv : W16
  watts : W16
  energy : W32
  temps : List (Option W16)
  rails : List (W16 × W32)
deriving DecidableEq, Repr

/-- How a phase of bring-up ends (21 R668, Table 21.1): for ROM the code of slot 0 of each bank, 0 where it verifies; for
IMAGES whether the factory record verifies and the codes of slots 1 to 3; for HBM the channels that failed training or the
self-test; for MARGIN the readings of the monitors; for SLOTS the slots that failed, by gallery and slot; for KAT the cores
that gave wrong results. -/
inductive PhaseResult where
  | rom
  | images
  | hbm (failed : List (BitVec 8))
  | identity
  | margin (readings : List PathReading)
  | slots (failed : List (BitVec 8 × BitVec 5))
  | kat (wrong : List Coord)
deriving DecidableEq, Repr

/-- The commands, in the order of the table. -/
inductive Instr where
  /-- `REG_LOW_HALF_READ` (R14): A read of the low half of a 64-bit register returns it and latches the high half for this function. -/
  | regLowHalfRead (fn : Fn) (off : W32)
  /-- `REG_LOW_HALF_WRITE` (R15): A write of the low half of a 64-bit register is held until the high half is written. -/
  | regLowHalfWrite (fn : Fn) (off : W32) (v : W32)
  /-- `REG_HIGH_HALF_WRITE` (R15): A write of the high half applies the full 64-bit value with the held low half, or with the present low half when none is held. -/
  | regHighHalfWrite (fn : Fn) (off : W32) (v : W32)
  /-- `REG_ACCESS` (R16): A register access that breaks the width and alignment rule is discarded or reads 0 and is reported. -/
  | regAccess (fn : Fn) (write : Bool) (off : W32) (bytes : BitVec 4) (v : W64)
  /-- `RC_READ` (R18): A read of an RC register returns its value and clears it, keeping a same-cycle event for the next read. -/
  | rcRead (fn : Fn) (off : W32) (same : W64)
  /-- `RW1C_WRITE` (R18): A write to an RW1C register clears each bit written as 1, a same-cycle device set winning. -/
  | rw1cWrite (fn : Fn) (off : W32) (v : W64) (same : W64)
  /-- `REGISTER_WRITE` (R18): A write to a register with no behaviour of its own sets the writable fields under the access codes. -/
  | registerWrite (fn : Fn) (off : W32) (v : W64)
  /-- `FTK_SOURCE_CHANGE` (R684): A write that changes FTK_CTRL.SOURCE puts the counter in ACQUIRING for the new source or in FREERUN for none. -/
  | ftkSourceChange (v : W32)
  /-- `FTK_RUN_START` (R59): A write of 1 to RUN applies SOURCE and ALLOW_UNLOCKED, then accepts the start or clears RUN with TIME_UNLOCKED. -/
  | ftkRunStart (v : W32)
  /-- `FTK_RUN_STOP` (R61): A write of 0 to RUN clears it and stops ticks after the landing of the frame in progress. -/
  | ftkRunStop (v : W32)
  /-- `FTK_SET` (R685): A write of FTK_SET loads the counter from FTK_SET_SEC and FTK_SET_NS and moves the discipline state. -/
  | ftkSet
  /-- `FTK_SNAP` (R685): A write of FTK_SNAP captures the counter and the frame number into the snapshot registers. -/
  | ftkSnap
  /-- `FTK_CONFIG_WRITE` (R56): A write to a frame configuration register or HAL_FRAME_POLICY is range-checked, lock-checked and applied or refused. -/
  | ftkConfigWrite (off : W32) (v : W64)
  /-- `HOLDOVER_EXPIRED` (R54): HOLDOVER lasting longer than FTK_HOLDOVER_LIMIT moves the counter to FREERUN and raises HOLDOVER_EXPIRED. -/
  | holdoverExpired
  /-- `PPS_IN_EDGE` (R655): A rising edge on 1PPS_IN is captured by the time counter and marks a second boundary. -/
  | ppsInEdge
  /-- `PPS_IN_MISSING` (R684): No 1PPS_IN edge for 1.5 s while SOURCE uses it loses the source. -/
  | ppsInMissing
  /-- `TICK` (R55): The frame number increases at a frame boundary and a new frame begins. -/
  | tick
  /-- `GALLERY_START` (R63): At its staggered offset after the tick a gallery's sequencers start their bound tables and the array ramp. -/
  | galleryStart (g : BitVec 8)
  /-- `MAIN_QUEUE_START` (R257): The main queue starts its bound table s cycles after the gallery start. -/
  | mainQueueStart (core : Coord)
  /-- `LANDING_OPEN` (R64): The landing opens for every gallery, the snapshot is taken and steps 1 and 2 begin. -/
  | landingOpen
  /-- `LSFLAG` (R382): A received landing-flag message is matched to its loss-scale group and round and compared. -/
  | lsflag (port : Option PortId) (p : Packet)
  /-- `LS_ROUND_END` (R381): The end of a loss-scale exchange round counts missing flags and starts the next round or ends step 2. -/
  | lsRoundEnd (g : BitVec 4)
  /-- `HALL_HANDOVER_DONE` (R440): Step 6 on a hall completes after spill, refill, program load, restore and mezzanine window copy. -/
  | hallHandoverDone (hall : HallId)
  /-- `ADMISSIONS` (R417): Once step 6 has completed on all its halls a context runs step 7, then its halls run steps 8 and 9. -/
  | admissions (ctx : Option CtxId)
  /-- `EPOCH_ENTRIES_WRITTEN` (R368): The new epoch has been written to every ownership entry of the context and the fence completion is posted. -/
  | epochEntriesWritten (ctx : CtxId)
  /-- `ARRAY_MATMUL` (R128): An ARRAY MATMUL step issues and folds its product onto the four arrays on its cycle schedule. -/
  | arrayMatmul (core : Coord) (q : Queue)
  /-- `ARRAY_STEP_COMPLETION` (R133): The last row is drained, the ARRAY step completes and releases its tokens. -/
  | arrayStepCompletion (core : Coord)
  /-- `RAMP_DOWN_END` (R141): The array ramp level reaches 0 and a waiting ARRAY step may issue with a new ramp-up. -/
  | rampDownEnd (core : Coord)
  /-- `VECTOR_ADD` (R244): VECTOR ADD computes a + b. -/
  | vectorAdd (core : Coord) (q : Queue)
  /-- `VECTOR_SUB` (R244): VECTOR SUB computes a − b. -/
  | vectorSub (core : Coord) (q : Queue)
  /-- `VECTOR_MUL` (R244): VECTOR MUL computes a × b. -/
  | vectorMul (core : Coord) (q : Queue)
  /-- `VECTOR_MAX` (R244): VECTOR MAX computes the maximum of a and b. -/
  | vectorMax (core : Coord) (q : Queue)
  /-- `VECTOR_MIN` (R244): VECTOR MIN computes the minimum of a and b. -/
  | vectorMin (core : Coord) (q : Queue)
  /-- `VECTOR_FMA` (R244): VECTOR FMA computes a × b + c with one rounding. -/
  | vectorFma (core : Coord) (q : Queue)
  /-- `SCALE` (R244): VECTOR SCALE multiplies a by the immediate. -/
  | scale (core : Coord) (q : Queue)
  /-- `CVT` (R106): VECTOR CVT converts a in mode RND, SR included. -/
  | cvt (core : Coord) (q : Queue)
  /-- `FILL` (R244): VECTOR FILL writes the immediate at every element. -/
  | fill (core : Coord) (q : Queue)
  /-- `RSINIT` (R244): VECTOR RSINIT writes (−∞, +0) into every row of a row-statistics buffer. -/
  | rsinit (core : Coord) (q : Queue)
  /-- `EXP` (R686): VECTOR EXP computes e^a with the fixed exponential function. -/
  | exp (core : Coord) (q : Queue)
  /-- `RSQRT` (R686): VECTOR RSQRT computes a^−1/2. -/
  | rsqrt (core : Coord) (q : Queue)
  /-- `RECIP` (R686): VECTOR RECIP computes 1/a. -/
  | recip (core : Coord) (q : Queue)
  /-- `RELU` (R244): VECTOR RELU applies max(a, 0). -/
  | relu (core : Coord) (q : Queue)
  /-- `LRELU` (R244): VECTOR LRELU applies leaky ReLU with its parameter from IMM. -/
  | lrelu (core : Coord) (q : Queue)
  /-- `SIGMOID` (R244): VECTOR SIGMOID applies the logistic function. -/
  | sigmoid (core : Coord) (q : Queue)
  /-- `TANH` (R244): VECTOR TANH applies tanh. -/
  | tanh (core : Coord) (q : Queue)
  /-- `SOFTPLUS` (R244): VECTOR SOFTPLUS applies ln(1 + e^a). -/
  | softplus (core : Coord) (q : Queue)
  /-- `ELU` (R244): VECTOR ELU applies ELU with its parameter from IMM. -/
  | elu (core : Coord) (q : Queue)
  /-- `SQRELU` (R244): VECTOR SQRELU applies max(a, 0)^2. -/
  | sqrelu (core : Coord) (q : Queue)
  /-- `GELU` (R378): VECTOR GELU applies the tanh form of GELU. -/
  | gelu (core : Coord) (q : Queue)
  /-- `SILU` (R378): VECTOR SILU applies a × σ(a). -/
  | silu (core : Coord) (q : Queue)
  /-- `DOUT_RELU` (R376): DOUT_RELU multiplies b by the ReLU derivative taken from the saved output. -/
  | doutRelu (core : Coord) (q : Queue)
  /-- `DOUT_LRELU` (R376): DOUT_LRELU multiplies b by the leaky ReLU derivative from the saved output. -/
  | doutLrelu (core : Coord) (q : Queue)
  /-- `DOUT_SIGMOID` (R376): DOUT_SIGMOID multiplies b by y(1 − y). -/
  | doutSigmoid (core : Coord) (q : Queue)
  /-- `DOUT_TANH` (R376): DOUT_TANH multiplies b by 1 − y². -/
  | doutTanh (core : Coord) (q : Queue)
  /-- `DOUT_SOFTPLUS` (R376): DOUT_SOFTPLUS multiplies b by 1 − e^−y. -/
  | doutSoftplus (core : Coord) (q : Queue)
  /-- `DOUT_ELU` (R376): DOUT_ELU multiplies b by the ELU derivative from the saved output. -/
  | doutElu (core : Coord) (q : Queue)
  /-- `DOUT_SQRELU` (R376): DOUT_SQRELU multiplies b by 2√y for positive y. -/
  | doutSqrelu (core : Coord) (q : Queue)
  /-- `DOUT_EXP` (R376): DOUT_EXP multiplies b by y. -/
  | doutExp (core : Coord) (q : Queue)
  /-- `ROWNORM` (R687): VECTOR ROWNORM computes e^(a − mx)/sm per row from a row-statistics buffer. -/
  | rownorm (core : Coord) (q : Queue)
  /-- `SEGSUM` (R293): VECTOR SEGSUM sums source rows sharing an index and lists the distinct indices. -/
  | segsum (core : Coord) (q : Queue)
  /-- `IADD` (R244): VECTOR IADD adds integers under SAT or WRAP. -/
  | iadd (core : Coord) (q : Queue)
  /-- `ISUB` (R244): VECTOR ISUB subtracts integers under SAT or WRAP. -/
  | isub (core : Coord) (q : Queue)
  /-- `IMUL` (R244): VECTOR IMUL multiplies integers under SAT or WRAP. -/
  | imul (core : Coord) (q : Queue)
  /-- `IMAX` (R244): VECTOR IMAX takes the integer maximum. -/
  | imax (core : Coord) (q : Queue)
  /-- `IMIN` (R244): VECTOR IMIN takes the integer minimum. -/
  | imin (core : Coord) (q : Queue)
  /-- `VECTOR_ITERATION_COMPLETION` (R244): An iteration of a VECTOR step completes and may release tokens. -/
  | vectorIterationCompletion (core : Coord)
  /-- `MOVER_COPY` (R278): A MOVER COPY copies and converts its source operand to its destination. -/
  | moverCopy (core : Coord) (q : Queue)
  /-- `GATHER` (R288): A MOVER GATHER reads the rows named by an index list. -/
  | gather (core : Coord) (q : Queue)
  /-- `SCATTER` (R292): A MOVER SCATTER writes rows at the indices of a list in list order. -/
  | scatter (core : Coord) (q : Queue)
  /-- `MOVER_ITERATION_COMPLETION` (R296): A mover iteration's writes become visible and the iteration completes. -/
  | moverIterationCompletion (core : Coord)
  /-- `MESH_PUT` (R354): A MESH PUT step sends a tile to a receiving core. -/
  | meshPut (core : Coord) (q : Queue)
  /-- `MESH_PUT_ADD` (R354): A MESH PUT_ADD step sends a tile for reduce-on-receive. -/
  | meshPutAdd (core : Coord) (q : Queue)
  /-- `SYNC_WAIT` (R252): A SYNC WAIT step stops dispatch until its wait holds, then releases. -/
  | syncWait (core : Coord) (q : Queue)
  /-- `SYNC_SIGNAL` (R252): A SYNC SIGNAL step sends a signal to a receiving core once its wait holds. -/
  | syncSignal (core : Coord) (q : Queue)
  /-- `FRAME_END` (R258): Dispatch of the FRAME_END mark ends dispatch of the main queue for the frame. -/
  | frameEnd (core : Coord) (q : Queue)
  /-- `FRAME_END_REACHED` (R258): The main queue reaches FRAME_END once all its steps and started idle-fill iterations are done and the arrays are idle. -/
  | frameEndReached (core : Coord)
  /-- `BRANCH` (R259): A BRANCH mark consumes a pending selection and continues at step 0 of the selected slot, or waits. -/
  | branch (core : Coord) (q : Queue)
  /-- `LOOP` (R250): A LOOP mark opens a loop of COUNT + 1 passes. -/
  | loop (core : Coord) (q : Queue)
  /-- `ENDLOOP` (R250): An ENDLOOP mark closes a pass and repeats or leaves the loop. -/
  | endloop (core : Coord) (q : Queue)
  /-- `TLOAD_COMPLETE` (R237): A table load ends and its slot becomes READY or FAILED. -/
  | tloadComplete (core : Coord) (slot : BitVec 4)
  /-- `TPATCH_COMPLETE` (R228): A patch completes and is validated, replacing the step or trapping. -/
  | tpatchComplete (core : Coord) (slot : BitVec 4)
  /-- `ADD` (R214): ADD sets s[RD] to s[RS1] + s[RS2]. -/
  | add (core : Coord) (rd rs1 rs2 : RegNo)
  /-- `SUB` (R214): SUB sets s[RD] to s[RS1] − s[RS2]. -/
  | sub (core : Coord) (rd rs1 rs2 : RegNo)
  /-- `AND` (R214): AND computes the bitwise and. -/
  | and (core : Coord) (rd rs1 rs2 : RegNo)
  /-- `OR` (R214): OR computes the bitwise or. -/
  | or (core : Coord) (rd rs1 rs2 : RegNo)
  /-- `XOR` (R214): XOR computes the bitwise exclusive or. -/
  | xor (core : Coord) (rd rs1 rs2 : RegNo)
  /-- `SLL` (R214): SLL shifts left by s[RS2][4:0]. -/
  | sll (core : Coord) (rd rs1 rs2 : RegNo)
  /-- `SRL` (R214): SRL shifts right logically. -/
  | srl (core : Coord) (rd rs1 rs2 : RegNo)
  /-- `SRA` (R214): SRA shifts right arithmetically. -/
  | sra (core : Coord) (rd rs1 rs2 : RegNo)
  /-- `MUL` (R214): MUL gives the low 32 bits of the product. -/
  | mul (core : Coord) (rd rs1 rs2 : RegNo)
  /-- `MULH` (R214): MULH gives the high 32 bits of the signed product. -/
  | mulh (core : Coord) (rd rs1 rs2 : RegNo)
  /-- `MULHU` (R214): MULHU gives the high 32 bits of the unsigned product. -/
  | mulhu (core : Coord) (rd rs1 rs2 : RegNo)
  /-- `DIV` (R215): DIV gives the signed quotient rounded toward zero. -/
  | div (core : Coord) (rd rs1 rs2 : RegNo)
  /-- `DIVU` (R215): DIVU gives the unsigned quotient. -/
  | divu (core : Coord) (rd rs1 rs2 : RegNo)
  /-- `REM` (R215): REM gives the signed remainder. -/
  | rem (core : Coord) (rd rs1 rs2 : RegNo)
  /-- `REMU` (R215): REMU gives the unsigned remainder. -/
  | remu (core : Coord) (rd rs1 rs2 : RegNo)
  /-- `MIN` (R214): MIN gives the signed minimum. -/
  | min (core : Coord) (rd rs1 rs2 : RegNo)
  /-- `MAX` (R214): MAX gives the signed maximum. -/
  | max (core : Coord) (rd rs1 rs2 : RegNo)
  /-- `MINU` (R214): MINU gives the unsigned minimum. -/
  | minu (core : Coord) (rd rs1 rs2 : RegNo)
  /-- `MAXU` (R214): MAXU gives the unsigned maximum. -/
  | maxu (core : Coord) (rd rs1 rs2 : RegNo)
  /-- `ADDI` (R216): ADDI adds a sign-extended immediate. -/
  | addi (core : Coord) (rd rs1 : RegNo) (imm : W16)
  /-- `ANDI` (R216): ANDI ands a zero-extended immediate. -/
  | andi (core : Coord) (rd rs1 : RegNo) (imm : W16)
  /-- `ORI` (R216): ORI ors a zero-extended immediate. -/
  | ori (core : Coord) (rd rs1 : RegNo) (imm : W16)
  /-- `XORI` (R216): XORI xors a zero-extended immediate. -/
  | xori (core : Coord) (rd rs1 : RegNo) (imm : W16)
  /-- `SLLI` (R216): SLLI shifts left by an immediate. -/
  | slli (core : Coord) (rd rs1 : RegNo) (sh : BitVec 5)
  /-- `SRLI` (R216): SRLI shifts right logically by an immediate. -/
  | srli (core : Coord) (rd rs1 : RegNo) (sh : BitVec 5)
  /-- `SRAI` (R216): SRAI shifts right arithmetically by an immediate. -/
  | srai (core : Coord) (rd rs1 : RegNo) (sh : BitVec 5)
  /-- `LUI` (R216): LUI sets s[RD] to IMM × 2^16. -/
  | lui (core : Coord) (rd : RegNo) (imm : W16)
  /-- `AADD` (R213): AADD adds a sign-extended scalar to an address register. -/
  | aadd (core : Coord) (rd rs1 : BitVec 4) (rs2 : RegNo)
  /-- `ASETLO` (R213): ASETLO sets the low half of an address register. -/
  | asetlo (core : Coord) (rd : BitVec 4) (rs2 : RegNo)
  /-- `ASETHI` (R213): ASETHI sets the high half of an address register. -/
  | asethi (core : Coord) (rd : BitVec 4) (rs2 : RegNo)
  /-- `AGETLO` (R213): AGETLO reads the low half of an address register. -/
  | agetlo (core : Coord) (rd : RegNo) (rs1 : BitVec 4)
  /-- `AGETHI` (R213): AGETHI reads the high half of an address register. -/
  | agethi (core : Coord) (rd : RegNo) (rs1 : BitVec 4)
  /-- `AMOV` (R213): AMOV copies an address register. -/
  | amov (core : Coord) (rd rs1 : BitVec 4)
  /-- `AZX` (R213): AZX zero-extends a scalar into an address register. -/
  | azx (core : Coord) (rd : BitVec 4) (rs2 : RegNo)
  /-- `AADDI` (R216): AADDI adds a sign-extended immediate to an address register. -/
  | aaddi (core : Coord) (rd rs1 : BitVec 4) (imm : W16)
  /-- `CMP` (R217): CMP sets a predicate from a register comparison. -/
  | cmp (core : Coord) (pd : BitVec 3) (rs1 rs2 : RegNo) (cond : BitVec 3)
  /-- `CMPI` (R217): CMPI sets a predicate from a comparison with an immediate. -/
  | cmpi (core : Coord) (pd : BitVec 3) (rs1 : RegNo) (cond : BitVec 2) (imm : W16)
  /-- `PAND` (R218): PAND ands two predicates. -/
  | pand (core : Coord) (pd pa pb : BitVec 3)
  /-- `POR` (R218): POR ors two predicates. -/
  | por (core : Coord) (pd pa pb : BitVec 3)
  /-- `PXOR` (R218): PXOR xors two predicates. -/
  | pxor (core : Coord) (pd pa pb : BitVec 3)
  /-- `PANDN` (R218): PANDN ands one predicate with the negation of another. -/
  | pandn (core : Coord) (pd pa pb : BitVec 3)
  /-- `SEL` (R218): SEL selects one of two scalars by a predicate. -/
  | sel (core : Coord) (rd rs1 rs2 : RegNo) (p : BitVec 3)
  /-- `BR` (R219): BR branches when p[P] xor N is 1. -/
  | br (core : Coord) (p : BitVec 3) (n : Bool) (off : BitVec 22)
  /-- `JAL` (R219): JAL saves the return index and jumps. -/
  | jal (core : Coord) (rd : RegNo) (off : BitVec 21)
  /-- `JR` (R219): JR jumps to the index in a scalar register. -/
  | jr (core : Coord) (rs1 : RegNo)
  /-- `LDB` (R220): LDB loads a sign-extended byte from the alcove. -/
  | ldb (core : Coord) (rd : RegNo) (rs1 : BitVec 4) (imm : W16)
  /-- `LDBU` (R220): LDBU loads a zero-extended byte. -/
  | ldbu (core : Coord) (rd : RegNo) (rs1 : BitVec 4) (imm : W16)
  /-- `LDH` (R220): LDH loads a sign-extended halfword. -/
  | ldh (core : Coord) (rd : RegNo) (rs1 : BitVec 4) (imm : W16)
  /-- `LDHU` (R220): LDHU loads a zero-extended halfword. -/
  | ldhu (core : Coord) (rd : RegNo) (rs1 : BitVec 4) (imm : W16)
  /-- `LDW` (R220): LDW loads a 32-bit word. -/
  | ldw (core : Coord) (rd : RegNo) (rs1 : BitVec 4) (imm : W16)
  /-- `LDA` (R220): LDA loads 64 bits into an address register. -/
  | lda (core : Coord) (rd rs1 : BitVec 4) (imm : W16)
  /-- `STB` (R220): STB stores the low byte of a scalar. -/
  | stb (core : Coord) (rd : RegNo) (rs1 : BitVec 4) (imm : W16)
  /-- `STH` (R220): STH stores the low halfword of a scalar. -/
  | sth (core : Coord) (rd : RegNo) (rs1 : BitVec 4) (imm : W16)
  /-- `STW` (R220): STW stores a 32-bit scalar. -/
  | stw (core : Coord) (rd : RegNo) (rs1 : BitVec 4) (imm : W16)
  /-- `STA` (R220): STA stores an address register. -/
  | sta (core : Coord) (rd rs1 : BitVec 4) (imm : W16)
  /-- `DCREATE` (R221): DCREATE reads and validates a descriptor image into a descriptor register. -/
  | dcreate (core : Coord) (dd : BitVec 6) (ab : BitVec 4) (imm : W16)
  /-- `DCOPY` (R222): DCOPY copies a valid descriptor register. -/
  | dcopy (core : Coord) (dd ds : BitVec 6)
  /-- `DINV` (R222): DINV clears a descriptor register's valid bit. -/
  | dinv (core : Coord) (dd : BitVec 6)
  /-- `TLOAD` (R237): TLOAD sets a slot LOADING and starts copying a table image. -/
  | tload (core : Coord) (slot : BitVec 4) (ds : BitVec 6)
  /-- `TGO` (R225): TGO makes a slot the pending selection of a queue. -/
  | tgo (core : Coord) (slot : BitVec 4) (q : Queue)
  /-- `TSWITCH` (R226): TSWITCH binds or unbinds a slot to a queue from the next landing. -/
  | tswitch (core : Coord) (slot : BitVec 4) (q : Queue) (rs : RegNo) (u : Bool)
  /-- `TWAIT` (R227): TWAIT blocks until a token counter reaches a value. -/
  | twait (core : Coord) (tc : BitVec 4) (rs : RegNo)
  /-- `TWAIT_RETIRE` (R227): A blocked TWAIT retires in the cycle after its counter reaches the value. -/
  | twaitRetire (core : Coord)
  /-- `TPATCH` (R228): TPATCH starts replacing a field of a step in a slot. -/
  | tpatch (core : Coord) (slot : BitVec 4) (rs : RegNo) (av : BitVec 4) (field : BitVec 3)
  /-- `SEND` (R229): SEND checks its destination and sends a 64-bit message when it holds a credit, or requests one. -/
  | send (core : Coord) (ss : RegNo) (a : BitVec 4)
  /-- `SEND_RESUME` (R230): A blocked SEND injects its message once it holds a credit and a send-buffer entry. -/
  | sendResume (core : Coord)
  /-- `RECV` (R231): RECV removes the oldest entry of a receive queue or blocks. -/
  | recv (core : Coord) (sd : RegNo) (a : BitVec 4) (queue : BitVec 3)
  /-- `RECV_RESUME` (R231): A blocked RECV completes once an entry is present. -/
  | recvResume (core : Coord)
  /-- `PROBE` (R231): PROBE writes the number of entries of a receive queue. -/
  | probe (core : Coord) (sd : RegNo) (queue : BitVec 3)
  /-- `LANDWAIT` (R233): LANDWAIT blocks until step 9 of the next landing has completed. -/
  | landwait (core : Coord) (sd : RegNo)
  /-- `LANDWAIT_RESUME` (R233): A blocked LANDWAIT completes with the armed frame number. -/
  | landwaitResume (core : Coord)
  /-- `FENCE` (R232): FENCE blocks until its store, message and table conditions hold. -/
  | fence (core : Coord) (mask : BitVec 3)
  /-- `FENCE_RESUME` (R232): A blocked FENCE retires once its conditions hold. -/
  | fenceResume (core : Coord)
  /-- `CSRR` (R234): CSRR reads a control and status register. -/
  | csrr (core : Coord) (a : BitVec 4) (csr : BitVec 12)
  /-- `CSRW` (R234): CSRW writes a control and status register. -/
  | csrw (core : Coord) (a : BitVec 4) (csr : BitVec 12)
  /-- `TRAP` (R206): TRAP raises a SOFTWARE trap with a 16-bit code. -/
  | trap (core : Coord) (code : W16)
  /-- `TRET` (R207): TRET returns from the handler to tepc. -/
  | tret (core : Coord)
  /-- `HALT` (R211): HALT stops the control processor without a fault. -/
  | halt (core : Coord)
  /-- `MSG` (R349): An arriving MSG is placed in its receive queue against a credit and acknowledged. -/
  | msg (port : Option PortId) (p : Packet)
  /-- `CREDIT_REQ` (R346): A receive queue answers a credit request with up to 4 credits. -/
  | creditReq (port : Option PortId) (p : Packet)
  /-- `CREDIT_GRANT` (R347): An arriving grant fills the sender's credit cache and lets a waiting SEND proceed. -/
  | creditGrant (port : Option PortId) (p : Packet)
  /-- `CREDIT_RET` (R349): A returned credit is subtracted from the grant record and RES. -/
  | creditRet (port : Option PortId) (p : Packet)
  /-- `PUT` (R357): An arriving PUT is checked and its tile written into the receiving DD. -/
  | put (port : Option PortId) (p : Packet)
  /-- `PUT_ADD` (R358): An arriving PUT_ADD is merged into the receiving pair buffer by reduce-on-receive. -/
  | putAdd (port : Option PortId) (p : Packet)
  /-- `SIGNAL` (R255): An arriving SIGNAL releases a token at the receiver and is acknowledged. -/
  | signal (port : Option PortId) (p : Packet)
  /-- `ACK` (R361): An arriving ACK completes the sending iteration, signal or message. -/
  | ack (port : Option PortId) (p : Packet)
  /-- `NACK` (R362): An arriving NACK abandons the sending step or schedules a resend for EPOCH_AHEAD. -/
  | nack (port : Option PortId) (p : Packet)
  /-- `CREDIT_REQ_RETRY` (R346): 64 cycles after a COUNT 0 grant the sender requests credits again. -/
  | creditReqRetry (core : Coord)
  /-- `CREDIT_EXPIRY` (R348): A sender discards and returns a credit unused 500 µs after its grant. -/
  | creditExpiry (core : Coord) (dest : W32)
  /-- `GRANT_RECORD_EXPIRY` (R348): A receive queue removes a grant record 1,000 µs after issue. -/
  | grantRecordExpiry (core : Coord) (queue : BitVec 3) (saved : Option CtxId)
  /-- `MSG_CREDIT_TIMEOUT` (R353): A SEND that has waited 1 ms for a credit raises MSG_CREDIT_TIMEOUT. -/
  | msgCreditTimeout (core : Coord)
  /-- `EPOCH_AHEAD_RETRY` (R365): 256 cycles after an EPOCH_AHEAD NACK the sender sends the tile again. -/
  | epochAheadRetry (core : Coord) (tile : W32)
  /-- `MESH_DEADLOCK` (R363): A flit not advancing for 2^LOG2 cycles raises MESH_DEADLOCK. -/
  | meshDeadlock (hall : HallId)
  /-- `LINK_RSP_TIMEOUT` (R533): An iteration or MSG without ACK 2 ms after its last flit is handled as a NACK. -/
  | linkRspTimeout (core : Coord) (tile : W32)
  /-- `QUARANTINE_DROP` (R590): A packet or request from a slot behind a closed balustrade is discarded and counted. -/
  | quarantineDrop (gallery : BitVec 8) (slot : BitVec 5)
  /-- `PATROL_SCRUB` (R326): The scrubbers read memory periodically, correcting and poisoning errors. -/
  | patrolScrub (key : W64) (bytes : W32) (upsets : List (W64 × Bool)) (passEnd : Bool)
  /-- `CHANNEL_TEST_ENTER` (R328): A write of 1 to MEM_CH_CTRL.TEST puts the channel in TEST or is refused. -/
  | channelTestEnter (ch : BitVec 8)
  /-- `CHANNEL_TEST_EXIT` (R328): A write of 0 to TEST returns the channel to SERVICE. -/
  | channelTestExit (ch : BitVec 8)
  /-- `TG_START` (R331): MEM_TG_CTRL.START starts a traffic generator run or is refused. -/
  | tgStart (ch : BitVec 8) (v : W32)
  /-- `TG_STOP` (R331): MEM_TG_CTRL.STOP ends the run after the burst in progress. -/
  | tgStop (ch : BitVec 8)
  /-- `TG_RUN_END` (R332): A traffic generator run ends and sets DONE. -/
  | tgRunEnd (ch : BitVec 8) (ops : W64)
  /-- `POT_QUERY` (R317): A write of MEM_POT_QUERY starts a lookup of an ownership entry. -/
  | potQuery (page : BitVec 24)
  /-- `POT_LOOKUP_DONE` (R317): The lookup loads the entry into MEM_POT_ENTRY. -/
  | potLookupDone
  /-- `CHANNEL_TRAINING_END` (R308): An HBM channel's training ends in SERVICE or FAILED. -/
  | channelTrainingEnd (ch : BitVec 8) (ok : Bool)
  /-- `BAR4_READ` (R470): A host read through BAR4 reaches HBM under the checks of BAR4. -/
  | bar4Read (fn : Fn) (off : W64) (len : BitVec 13)
  /-- `BAR4_WRITE` (R471): A posted host write through BAR4 reaches HBM under the checks of BAR4. -/
  | bar4Write (fn : Fn) (off : W64) (data : List Byte)
  /-- `SQ_TAIL` (R479): An SQ_TAIL doorbell names the next submission slot of a ring. -/
  | sqTail (fn : Fn) (page : W16) (v : W32)
  /-- `CQ_HEAD` (R480): A CQ_HEAD doorbell releases completion slots and lets held completions be posted. -/
  | cqHead (fn : Fn) (page : W16) (v : W32)
  /-- `COMMAND_FETCH` (R481): A submission entry is fetched, numbered and checked for acceptance. -/
  | commandFetch (ring : RingId) (r : HostRead)
  /-- `NOP` (R481): NOP completes when accepted. -/
  | nop (ring : RingId) (seq : W32)
  /-- `CREATE_RING` (R477): CREATE_RING creates and enables a ring, bound or unbound. -/
  | createRing (ring : RingId) (seq : W32)
  /-- `DELETE_RING` (R488): DELETE_RING stops fetching, withdraws pending commands and disables a ring. -/
  | deleteRing (ring : RingId) (seq : W32)
  /-- `VF_CONFIG` (R504): VF_CONFIG names a virtual function's rings, halls, BAR4 base and context limit. -/
  | vfConfig (ring : RingId) (seq : W32)
  /-- `EVICT_AREA` (R447): EVICT_AREA registers the host eviction area. -/
  | evictArea (ring : RingId) (seq : W32)
  /-- `CREATE_CONTEXT` (R428): CREATE_CONTEXT creates a context with its reservations and optional pool. -/
  | createContext (ring : RingId) (seq : W32)
  /-- `DESTROY_CONTEXT` (R427): DESTROY_CONTEXT frees a context at once or at the next step 6. -/
  | destroyContext (ring : RingId) (seq : W32)
  /-- `RANGE_CREATE` (R431): RANGE_CREATE creates a DATA allocation range, evicting if needed. -/
  | rangeCreate (ring : RingId) (seq : W32)
  /-- `RANGE_REMOVE` (R432): RANGE_REMOVE removes a range at once or at the next step 6. -/
  | rangeRemove (ring : RingId) (seq : W32)
  /-- `HALL_SET` (R437): HALL_SET changes a context's hall mask at a target landing. -/
  | hallSet (ring : RingId) (seq : W32)
  /-- `ATTACH` (R463): ATTACH creates a context from a context package. -/
  | attach (ring : RingId) (seq : W32) (pkg : AttachRead)
  /-- `DETACH` (R461): DETACH detaches a context at a landing and writes its package. -/
  | detach (ring : RingId) (seq : W32)
  /-- `EXPORT` (R594): EXPORT writes a checkpoint package of a context. -/
  | exportCommand (ring : RingId) (seq : W32)
  /-- `PACKAGE_WRITTEN` (R595): A detach or export package has been written and its completion is posted. -/
  | packageWritten (ctx : CtxId) (ok : Bool)
  /-- `COPY` (R492): COPY moves data between host memory and device memory. -/
  | copy (ring : RingId) (seq : W32) (host : HostRead)
  /-- `SUBMIT_KERNEL` (R493): SUBMIT_KERNEL checks a kernel image and submits it to start at a landing. -/
  | submitKernel (ring : RingId) (seq : W32)
  /-- `BATCH` (R409): BATCH checks a batch descriptor that acts at a target landing. -/
  | batch (ring : RingId) (seq : W32) (desc : HostRead)
  /-- `FENCE_COMMAND` (R366): The FENCE command requests a new layout epoch at a target landing. -/
  | fenceCommand (ring : RingId) (seq : W32)
  /-- `LOAD_SHARD` (R451): LOAD_SHARD fetches a Brixah shard into a model version slot. -/
  | loadShard (ring : RingId) (seq : W32)
  /-- `LOAD_DATA` (R453): LOAD_DATA fetches and lays out a shard into a DATA range. -/
  | loadData (ring : RingId) (seq : W32)
  /-- `SHARD_FETCH_DONE` (R451): A fetched shard package is checked and laid out or quarantined and re-fetched. -/
  | shardFetchDone (ring : RingId) (seq : W32) (r : HostRead)
  /-- `SHARD_TIMEOUT` (R451): A fetch not finished within CTX_LOAD_TIMEOUT completes with SHARD_TIMEOUT. -/
  | shardTimeout (ring : RingId) (seq : W32)
  /-- `SWITCH_VERSION` (R458): SWITCH_VERSION requests a version switch at a target landing. -/
  | switchVersion (ring : RingId) (seq : W32)
  /-- `DISCARD_VERSION` (R456): DISCARD_VERSION retires a non-active version and frees its range. -/
  | discardVersion (ring : RingId) (seq : W32)
  /-- `RESTORE_IMAGE` (R448): RESTORE_IMAGE copies an evicted image back and checks its digest. -/
  | restoreImage (ring : RingId) (seq : W32) (host : HostRead)
  /-- `DIGEST_RECHECK` (R454): A periodic re-check of a resident image's digest quarantines it on mismatch. -/
  | digestRecheck (ctx : CtxId) (model : BitVec 4) (slot : BitVec 1) (passEnd : Bool)
  /-- `MAILBOX_READ` (R500): A read of a ring's mailbox returns it and advances READS. -/
  | mailboxRead (fn : Fn) (ix : W16)
  /-- `FEATURE_LOCK` (R473): A write of 1 to DEV_FEATURE_CTRL.LOCK fixes the accepted features or is refused. -/
  | featureLock
  /-- `ADMIN_RING_ENABLE` (R474): A write of 1 to the admin ring's EN enables it or is refused. -/
  | adminRingEnable (fn : Fn) (v : W32)
  /-- `ADMIN_RING_DISABLE` (R691): A write of 0 to the admin ring's EN disables it from any state. -/
  | adminRingDisable (fn : Fn) (v : W32)
  /-- `RING_QUERY` (R476): A write of HST_RING_QUERY loads the state of a ring into HST_RING_INFO. -/
  | ringQuery (fn : Fn) (ring : RingId)
  /-- `PF_FLR` (R506): A function-level reset of the PF resets the host-interface state. -/
  | pfFlr
  /-- `PERST_N` (R650): Assertion of PERST_N resets only the host-interface state. -/
  | perstN
  /-- `LINK_LOSS` (R508): A transition to DL_Down with rings enabled records LINK_LOST and stops host requests. -/
  | linkLoss
  /-- `VF_FLR` (R507): A function-level reset of a VF disables its rings and destroys its contexts. -/
  | vfFlr (vf : Fn)
  /-- `VF_ENABLE_SET` (R503): Setting VF Enable brings the virtual functions into being if SRIOV is accepted. -/
  | vfEnableSet
  /-- `VF_ENABLE_CLEAR` (R507): Clearing VF Enable destroys every context of every VF. -/
  | vfEnableClear
  /-- `MSIX_UNMASK` (R502): Unmasking a vector with its pending bit set sends its message. -/
  | msixUnmask (fn : Fn) (vector : BitVec 11)
  /-- `BAR4_RESIZE` (R470): A Resizable BAR change of the PF's BAR4 clears low bits of HST_BAR4_BASE. -/
  | bar4Resize (log2 : BitVec 6)
  /-- `PORT_ENABLE` (R524): A write of 1 to GAR_PORT_CTRL.EN lets a port train. -/
  | portEnable (port : PortId) (v : W32)
  /-- `PORT_DISABLE` (R527): A write of 0 to EN takes the port to DISABLED. -/
  | portDisable (port : PortId) (v : W32)
  /-- `LANE_RESET` (R527): A write of LANE_RESET readmits excluded lanes at the next training. -/
  | laneReset (port : PortId) (v : W32)
  /-- `TRAINING_COMPLETE` (R524): Training ends and the port enters UP or DEGRADED with sequence numbers and credits set. -/
  | trainingComplete (port : PortId) (usable : BitVec 4)
  /-- `TRAINING_TIMEOUT` (R525): Training unfinished after 2 s records LINK_TRAIN_FAIL and the port waits in DOWN. -/
  | trainingTimeout (port : PortId)
  /-- `TRAINING_RETRY` (R525): After 1 s in DOWN the port trains again, or enters FAILED after ATTEMPTS failures. -/
  | trainingRetry (port : PortId)
  /-- `LOSS_OF_SIGNAL` (R527): An active lane losing signal or codeword lock takes the port down for retraining. -/
  | lossOfSignal (port : PortId) (lane : BitVec 2)
  /-- `LANE_UE_LIMIT` (R527): A lane exceeding UE_LIMIT uncorrectable codewords in a second is excluded and the port retrains. -/
  | laneUeLimit (port : PortId) (lane : BitVec 2)
  /-- `BAD_FLIT` (R522): A sequenced flit in an uncorrectable codeword is discarded and a REPLAY_REQ is sent. -/
  | badFlit (port : PortId) (seq : W16) (codewords : BitVec 2)
  /-- `REPLAY_REQ` (R522): A received REPLAY_REQ makes the sender send REPLAY_START and resend its buffer. -/
  | replayReq (port : PortId) (seq : W16)
  /-- `REPLAY_REQ_REPEAT` (R522): Every 1 µs without a REPLAY_START the receiver repeats its REPLAY_REQ. -/
  | replayReqRepeat (port : PortId)
  /-- `REPLAY_START` (R522): A received REPLAY_START resumes acceptance of sequenced flits. -/
  | replayStart (port : PortId) (seq : W16)
  /-- `LINK` (R518): A received LINK control slot updates acknowledgements and credits. -/
  | link (port : PortId) (ack : W16) (counts : List W16)
  /-- `ALIGN` (R514): A received ALIGN control slot is used to deskew the lanes. -/
  | align (port : PortId) (lane : BitVec 2) (codeword : W32) (corrected : W32)
  /-- `IDENT` (R528): A received IDENT gives the peer's id, port and usable lanes during training. -/
  | ident (port : PortId) (id : W16) (peer : BitVec 4) (lanes : BitVec 4) (degrade : Bool)
  /-- `DEVICE_ID_WRITE` (R534): A write of GAR_DEVICE_ID sets the device id or is refused. -/
  | deviceIdWrite (v : W32)
  /-- `ROUTE_WRITE` (R536): A write of a routing entry changes routing for later packets. -/
  | routeWrite (id : W16) (v : W32)
  /-- `PTP_ROLE_WRITE` (R542): A write of GAR_PORT_PTP sets a port's PTP role or is refused. -/
  | ptpRoleWrite (port : PortId) (v : W32)
  /-- `MARGIN_SCAN` (R530): A write of GAR_MARGIN_CTRL starts an eye-margin scan of the named lanes. -/
  | marginScan (port : PortId) (lanes : BitVec 4)
  /-- `MARGIN_SCAN_DONE` (R530): A lane's scan ends and sets GAR_LANE_MARGIN. -/
  | marginScanDone (port : PortId) (lane : BitVec 2) (horiz : W16) (vert : W16)
  /-- `BULK_READ` (R540): A received BULK_READ is served with BULK_DATA or refused. -/
  | bulkRead (port : Option PortId) (p : Packet)
  /-- `BULK_DATA` (R541): A received BULK_DATA is written for its transfer or refused. -/
  | bulkData (port : Option PortId) (p : Packet)
  /-- `SYNC_INTERVAL` (R543): Each Sync interval a MASTER port sends Sync and a SLAVE port sends Delay_Req. -/
  | syncInterval (port : PortId)
  /-- `SYNC` (R543): A received PTP Sync is timestamped. -/
  | sync (port : PortId) (m : PtpMsg)
  /-- `FOLLOW_UP` (R543): A received Follow_Up completes a two-step Sync and yields an offset. -/
  | followUp (port : PortId) (m : PtpMsg)
  /-- `DELAY_REQ` (R543): A received Delay_Req is answered with Delay_Resp. -/
  | delayReq (port : PortId) (m : PtpMsg)
  /-- `DELAY_RESP` (R543): A received Delay_Resp updates the mean path delay. -/
  | delayResp (port : PortId) (m : PtpMsg)
  /-- `PTP_LOST` (R545): No Sync for 8 Sync intervals loses the PTP source. -/
  | ptpLost
  /-- `FAULT_EVENT` (R552): An event of a fault source is counted, classed, latched, made pending and acted on. -/
  | faultEvent (src : BitVec 7) (hall : HallId) (ctx : Option CtxId) (code : W16) (inst : Byte) (x : BitVec 7) (y : BitVec 6)
  /-- `LATCH_CLEAR` (R563): A write of 1 to LATCH of a CLEAR register re-arms the scope's latch. -/
  | latchClear (scope : Option HallId)
  /-- `DUMP_READ_TIMEOUT` (R592): A dump read unanswered in 100 µs gets an UNREACHABLE record. -/
  | dumpReadTimeout (serial : W32) (kind : Byte) (index : W16)
  /-- `DUMP_TIME_LIMIT` (R592): After one eighth of the deadline the remaining units get SKIPPED records and the dump ends. -/
  | dumpTimeLimit (serial : W32) (done : W32)
  /-- `RESET_STEP_END` (R566): A reset step completes and its hall, die or device returns to service. -/
  | resetStepEnd (unit : ResetUnit) (failed : List (BitVec 8 × BitVec 5))
  /-- `RESET_DEADLINE` (R570): A step unfinished at its deadline gives way to the next step. -/
  | resetDeadline (unit : ResetUnit)
  /-- `REPLAY_LIMIT_REACHED` (R582): A replay that has run RST_REPLAY_LIMIT frames without failure passes. -/
  | replayLimitReached (hall : HallId)
  /-- `RST_REQ_COMPUTE` (R568): An RST_REQ of kind compute-only requests a compute-only hall reset at the next step 8. -/
  | rstReqCompute (hall : HallId)
  /-- `RST_REQ_HALL` (R568): An RST_REQ of kind hall reset requests a hall reset at the next step 8. -/
  | rstReqHall (hall : HallId)
  /-- `RST_REQ_DIE` (R568): An RST_REQ of kind die reset starts a die reset at once. -/
  | rstReqDie (die : BitVec 4)
  /-- `RST_REQ_DEVICE` (R568): An RST_REQ of kind device reset starts a device reset at once. -/
  | rstReqDevice
  /-- `RST_REQ_POWER_CYCLE` (R568): An RST_REQ of kind power-cycle request asserts PWR_CYCLE_REQ_N. -/
  | rstReqPowerCycle
  /-- `DUMP_COPY` (R593): A write of RST_DUMP_COPY copies the dump at that offset to the host buffer. -/
  | dumpCopy (v : W32)
  /-- `DUMP_COPY_DONE` (R593): A host copy of a dump ends and its status is set. -/
  | dumpCopyDone (ok : Bool)
  /-- `IDENTITY_DERIVATION_END` (R611): Identity derivation ends in READY or FAILED and the live record is selected. -/
  | identityDerivationEnd (seed : BitVec 256)
  /-- `GET_CERT` (R613): GET_CERT returns the device or device CA certificate. -/
  | getCert
  /-- `ATTEST` (R616): ATTEST returns a signed attestation report over a nonce. -/
  | attest
  /-- `MARK_RETIRE` (R614): MARK_RETIRE marks a slot for retirement in the live record. -/
  | markRetire
  /-- `SLOT_RETEST` (R614): SLOT_RETEST sets an UNUSABLE slot to RETIRED for retest. -/
  | slotRetest
  /-- `FLASH_WRITE` (R615): FLASH_WRITE writes 4 KiB to the permitted image bank. -/
  | flashWrite
  /-- `MAILBOX_DONE` (R612): A security mailbox command ends, filling the window and setting DONE. -/
  | mailboxDone (ok : Bool)
  /-- `LIVE_RECORD_WRITE_END` (R607): A live copy write ends, or fails and raises FLASH_WRITE. -/
  | liveRecordWriteEnd (ok : Bool)
  /-- `CLASS_REQUEST` (R626): A write of PWR_CLASS_REQ sets the power class from the next landing. -/
  | classRequest (v : W32)
  /-- `PWR_BRAKE_N_FALL` (R627): PWR_BRAKE_N falling limits every array unit to DUTY 8. -/
  | pwrBrakeNFall
  /-- `PWR_BRAKE_N_RISE` (R627): PWR_BRAKE_N rising restores the class duty from the next tick. -/
  | pwrBrakeNRise
  /-- `INPUT_UV` (R620): Input below 45.0 V for 100 µs raises INPUT_UV. -/
  | inputUv
  /-- `INPUT_POWER_OFF` (R646): Input below 44.0 V for 100 µs powers the module off. -/
  | inputPowerOff
  /-- `INPUT_OV` (R620): Input above 62.0 V for 100 µs raises INPUT_OV. -/
  | inputOv
  /-- `RAIL_FAULT` (R621): A rail more than 5 % from its setpoint for 50 µs raises RAIL_FAULT. -/
  | railFault (rail : BitVec 6)
  /-- `HALL_DROOP` (R622): A VCORE droop of more than 20 mV for 20 ns raises HALL_DROOP. -/
  | hallDroop (hall : HallId)
  /-- `INPUT_SAMPLE` (R628): Every 10 µs the input power average is updated and checked. -/
  | inputSample (watts : W16)
  /-- `TELEMETRY_UPDATE` (R629): Every 1 ms input, rail and temperature telemetry is updated. -/
  | telemetryUpdate (t : Telemetry)
  /-- `MAINTENANCE_REQUEST` (R632): A write of PWR_MAINT_REQ makes the next landing a maintenance landing. -/
  | maintenanceRequest
  /-- `MAINTENANCE_INTERVAL` (R632): HOURS hours after the last recomputation the next landing becomes a maintenance landing. -/
  | maintenanceInterval
  /-- `PATH_DELAY_SAMPLE` (R635): Every 10 ms the path-delay monitors read slack and may raise PATH_DELAY_ALARM. -/
  | pathDelaySample (readings : List PathReading)
  /-- `PWR_EN_RISE` (R647): PWR_EN rising starts the rail ramp. -/
  | pwrEnRise
  /-- `PWR_GOOD_RELEASE` (R644): Rails in regulation release PWR_GOOD and the mask ROM starts. -/
  | pwrGoodRelease
  /-- `RAIL_RAMP_TIMEOUT` (R644): A rail not in regulation by te + 50 ms turns every rail off. -/
  | railRampTimeout
  /-- `PWR_EN_FALL` (R645): PWR_EN falling stops all work and powers the module down. -/
  | pwrEnFall
  /-- `REFCLK_LOSS` (R654): Loss of the link reference oscillator raises REFCLK_LOSS. -/
  | refclkLoss
  /-- `CBL_PRSNT_N_LOW` (R661): A cable inserted turns VCBL on and lets its ports train. -/
  | cblPrsntNLow (cbl : BitVec 2) (kind : BitVec 2)
  /-- `CBL_PRSNT_N_HIGH` (R664): A cable removed takes its connector's ports out of service. -/
  | cblPrsntNHigh (cbl : BitVec 2)
  /-- `VCBL_OVERLOAD` (R661): VCBL above 3.0 A turns off and takes the connector's ports down. -/
  | vcblOverload (cbl : BitVec 2)
  /-- `STATUS` (R659): SMBus STATUS returns boot state, error pin, brake and class. -/
  | status
  /-- `INPUT` (R659): SMBus INPUT returns PWR_INPUT. -/
  | input
  /-- `INPUT_PEAK` (R659): SMBus INPUT_PEAK returns the highest input power since its last read. -/
  | inputPeak
  /-- `ENERGY` (R659): SMBus ENERGY returns PWR_ENERGY. -/
  | energy
  /-- `FAULTS` (R659): SMBus FAULTS returns FLT_STATUS. -/
  | faults
  /-- `TEMP_N` (R659): SMBus TEMP_n returns the temperature of sensor n. -/
  | tempN (n : BitVec 5)
  /-- `RAIL_N` (R659): SMBus RAIL_r returns PWR_RAIL of rail r. -/
  | railN (r : BitVec 6)
  /-- `SERIAL` (R659): SMBus SERIAL returns the device serial. -/
  | serial
  /-- `PART` (R659): SMBus PART returns the part number. -/
  | part
  /-- `VERSIONS` (R659): SMBus VERSIONS returns the image versions. -/
  | versions
  /-- `ALERT_RESPONSE` (R660): A read of the Alert Response Address returns the module's address and releases SMB_ALERT_N. -/
  | alertResponse
  /-- `BRINGUP_PHASE_END` (R668): A bring-up phase finishes and the next phase starts. -/
  | bringupPhaseEnd (r : PhaseResult)
  /-- `KAT_PRIVATE_TICK` (R677): A private 200 µs tick from the reference oscillator advances the known-answer run. -/
  | katPrivateTick
  /-- `BRINGUP_TIMEOUT` (R672): Bring-up not READY by its deadline raises RESET_DEADLINE and escalates. -/
  | bringupTimeout
  /-- `REG_HIGH_HALF_READ` (R683): A read of the high half of a 64-bit register returns the latched high half and consumes the latch, or returns the current high half when none is latched. -/
  | regHighHalfRead (fn : Fn) (off : W32)
  /-- `CTX_LS_DECIDE` (R384): A write of a target frame to CTX_LS_DECIDE requests a loss-scale decision, or is refused with LS_DECIDE_REFUSED. -/
  | ctxLsDecide (g : BitVec 4) (v : W64)
  /-- `CTX_LS_CTRL_WRITE` (R388): A write of CTX_LS_CTRL enables a loss-scale group after validation, refusing with LS_CONFIG, or disables it and discards any pending request. -/
  | ctxLsCtrlWrite (g : BitVec 4) (v : W32)
  /-- `PPS_OUT_SECOND` (R656): In MODE SECOND, the default, 1PPS_OUT gives a 10 µs pulse at each second boundary of the device time counter. -/
  | ppsOutSecond
  /-- `ILLEGAL` (R213): An instruction word whose OP is reserved, the all-zero word included, traps with ILLEGAL. -/
  | illegal (core : Coord) (word : W32)
  /-- `LINK_UP` (R510): The PCIe data link layer comes up, and HST_STATUS LINK_UP, WIDTH and SPEED take the negotiated values. -/
  | linkUp (width speed : BitVec 4)
  /-- `RING_INFO_VALID` (R510): 1 µs after a write of HST_RING_QUERY, HST_RING_INFO holds the state of the queried ring. -/
  | ringInfoValid (fn : Fn)
deriving DecidableEq, Repr

end Sys2Proof
end

