-- ==== Sys2Proof/Decode.lean ====
section
/-! DEFINITION. The rows of the table as words: none of them has bits. -/
namespace Sys2Proof

/-- The command that a word spells by the table's bits. Every row of the table is a command without bits, so no word
spells one. -/
def decodeTableWord (_nbits _w : Nat) : Option Instr := none

end Sys2Proof
end

