-- ==== Sys2Proof/Machine/Codes.lean ====
section
/-! DEFINITION. The status codes of the device (R21 and the code tables of the chapters). -/
namespace Sys2Proof.Machine.Code

/-- DESC_RANGE (Table 8.8): A range lies outside memory that the context may access with the named permissions. -/
def DESC_RANGE : Nat := 0x0101
/-- DESC_OVERLAP (Table 8.8): Self-aliasing of a write descriptor, a transformed copy that overlaps, or a staged iteration above 32 KiB. -/
def DESC_OVERLAP : Nat := 0x0102
/-- DESC_INDEX (Table 8.8): An index breaks its index mode. -/
def DESC_INDEX : Nat := 0x0103
/-- DESC_FORMAT (Table 8.8): Format, rounding mode, extent multiple or conversion path refused. -/
def DESC_FORMAT : Nat := 0x0104
/-- DESC_ACCESS (Table 8.8): A step reads or writes through a descriptor without that permission. -/
def DESC_ACCESS : Nat := 0x0105
/-- DESC_TRANSFORM (Table 8.8): Malformed transform, or a transform on a descriptor that the step writes. -/
def DESC_TRANSFORM : Nat := 0x0106
/-- DESC_ALIGN (Table 8.8): Base, stride or auxiliary base misaligned. -/
def DESC_ALIGN : Nat := 0x0107
/-- DESC_ENCODING (Table 8.8): Reserved field not 0, or reserved value. -/
def DESC_ENCODING : Nat := 0x0108
/-- TABLE_SHAPE (Table 7.9): The table-image descriptor breaks R236. -/
def TABLE_SHAPE : Nat := 0x0120
/-- TABLE_SPACE (Table 7.9): The table store cannot hold the table. -/
def TABLE_SPACE : Nat := 0x0121
/-- STEP_ENCODING (Table 7.9): Reserved unit, opcode or non-zero reserved field. -/
def STEP_ENCODING : Nat := 0x0122
/-- STEP_STRUCTURE (Table 7.9): A rule of R246 is broken. -/
def STEP_STRUCTURE : Nat := 0x0123
/-- STEP_SHAPE (Table 7.9): Shape or operand rank does not match the descriptors. -/
def STEP_SHAPE : Nat := 0x0124
/-- STEP_FIELD (Table 7.9): A TPATCH names a field that the step does not have. -/
def STEP_FIELD : Nat := 0x0125
/-- STEP_DESC_UNSET (Table 7.9): A descriptor register named by the step was not valid at issue. -/
def STEP_DESC_UNSET : Nat := 0x0126
/-- MEM_OWNER (Table 9.8): The page is not owned by the requesting context, or the mezzanine slice's hall is not held. -/
def MEM_OWNER : Nat := 0x0201
/-- MEM_PERM (Table 9.8): The page lacks the permission the access needs. -/
def MEM_PERM : Nat := 0x0202
/-- MEM_UE (Table 9.8): Uncorrectable data was read or partly written. -/
def MEM_UE : Nat := 0x0203
/-- MEM_CE (Table 9.8): A single-bit error was corrected. -/
def MEM_CE : Nat := 0x0204
/-- MEM_RESERVED (Table 9.8): An access to a reserved page. -/
def MEM_RESERVED : Nat := 0x0205
/-- MEM_CHANNEL_DOWN (Table 9.8): An access to a channel that is not in state SERVICE. -/
def MEM_CHANNEL_DOWN : Nat := 0x0206
/-- MEM_TG_REFUSED (Table 9.8): A TEST or START command was refused. -/
def MEM_TG_REFUSED : Nat := 0x0207
/-- MEM_TG_MISMATCH (Table 9.8): The checker found a mismatch. -/
def MEM_TG_MISMATCH : Nat := 0x0208
/-- ACC_MODE_INVALID (Table 5.7): Reserved accumulation mode, or row statistics not allowed for the mode or class. -/
def ACC_MODE_INVALID : Nat := 0x0301
/-- WIDE_SHAPE (Table 5.7): Wide-buffer format or extent does not match the step. -/
def WIDE_SHAPE : Nat := 0x0302
/-- WIDE_PLACEMENT (Table 5.7): Wide buffer outside the core's alcove and its gallery's mezzanine slice. -/
def WIDE_PLACEMENT : Nat := 0x0303
/-- ROWSTAT_SHAPE (Table 5.7): Row-statistics buffer format, extent or placement is wrong. -/
def ROWSTAT_SHAPE : Nat := 0x0304
/-- NUMERIC_TRAP (Table 5.7): A trapped NaN or infinity was written. -/
def NUMERIC_TRAP : Nat := 0x0305
/-- LS_CONFIG (Table 5.7): A loss-scale group was enabled with an invalid configuration (Training: Backward Pass, Loss Scale and Optimiser). -/
def LS_CONFIG : Nat := 0x0310
/-- LS_DIVERGED (Table 5.7): A peer at the same STEP reported a different EXP. -/
def LS_DIVERGED : Nat := 0x0311
/-- LS_FLAG_MISSED (Table 5.7): A peer's landing-flag message did not arrive within its round. -/
def LS_FLAG_MISSED : Nat := 0x0312
/-- LS_DECIDE_REFUSED (Table 5.7): A decision request found the group disabled or a request pending. -/
def LS_DECIDE_REFUSED : Nat := 0x0313
/-- FRAME_OVERRUN (Table 2.4): A core had not reached FRAME_END when the landing opened. -/
def FRAME_OVERRUN : Nat := 0x0401
/-- LANDING_OVERRUN (Table 2.4): Landing work on a hall continued past the tick. -/
def LANDING_OVERRUN : Nat := 0x0402
/-- HANG (Table 2.4): A hall reached HANG_FRAMES consecutive no-progress frames. -/
def HANG : Nat := 0x0403
/-- FRAME_CFG_LOCKED (Table 2.4): A frame configuration write was made while RUN or TICKING read 1 (R57). -/
def FRAME_CFG_LOCKED : Nat := 0x0404
/-- TIME_UNLOCKED (Table 2.4): RUN was refused in the current discipline state, or before the counter was loaded (R59). -/
def TIME_UNLOCKED : Nat := 0x0405
/-- TIME_STEP_REFUSED (Table 2.4): A step of more than 10 µs was needed while ticks were generated (R52). -/
def TIME_STEP_REFUSED : Nat := 0x0406
/-- FRAME_SKEW (Table 2.4): A received packet's frame number lay outside FTK_SKEW_TOL. -/
def FRAME_SKEW : Nat := 0x0407
/-- HOLDOVER_EXPIRED (Table 2.4): HOLDOVER exceeded FTK_HOLDOVER_LIMIT. -/
def HOLDOVER_EXPIRED : Nat := 0x0408
/-- FRAME_CFG_INVALID (Table 2.4): A value written to a register of the FTK block, or to HAL_FRAME_POLICY, was out of range (R56). -/
def FRAME_CFG_INVALID : Nat := 0x0409
/-- EPOCH_STALE (Table 10.8): A tile or signal of an older epoch arrived and was discarded. -/
def EPOCH_STALE : Nat := 0x0501
/-- QUARANTINE_DROP (Table 10.8): A packet from a slot behind a closed balustrade was discarded (The Reset Stair and Recovery). -/
def QUARANTINE_DROP : Nat := 0x0502
/-- EPOCH_AHEAD (Table 10.8): A tile or signal of a newer epoch arrived and is to be repeated. -/
def EPOCH_AHEAD : Nat := 0x0503
/-- EPOCH_INVALID (Table 10.8): A fence named a wrong epoch, or a fence was already pending. -/
def EPOCH_INVALID : Nat := 0x0504
/-- MSG_RX_DESC (Table 10.8): The receiving DD was not valid, not writable, transformed or misplaced. -/
def MSG_RX_DESC : Nat := 0x0505
/-- MSG_RX_SHAPE (Table 10.8): The tile's format or extents do not fit the receiving DD. -/
def MSG_RX_SHAPE : Nat := 0x0506
/-- MSG_PEER_ABSENT (Table 10.8): No running context with the job tag holds the destination hall. -/
def MSG_PEER_ABSENT : Nat := 0x0507
/-- MSG_NO_ROUTE (Table 10.8): The destination device id has no routing-table entry. -/
def MSG_NO_ROUTE : Nat := 0x0508
/-- MSG_CREDIT_TIMEOUT (Table 10.8): A SEND waited 1 ms for a credit. -/
def MSG_CREDIT_TIMEOUT : Nat := 0x0509
/-- MSG_SPACE (Table 10.8): A MESH step's source lies outside the alcove and its gallery's mezzanine slice. -/
def MSG_SPACE : Nat := 0x050A
/-- MESH_DEADLOCK (Table 10.8): A flit did not advance for 2^LOG2 cycles. -/
def MESH_DEADLOCK : Nat := 0x050B
/-- MSG_DEST_INVALID (Table 10.8): A MESH or SIGNAL step named at issue a destination that breaks R229 (R245). -/
def MSG_DEST_INVALID : Nat := 0x050C
/-- DIGEST_FAIL (Table 13.11): A shard, restored image or re-check failed its digest. -/
def DIGEST_FAIL : Nat := 0x0601
/-- SHARD_TIMEOUT (Table 13.11): A fetch did not finish within CTX_LOAD_TIMEOUT. -/
def SHARD_TIMEOUT : Nat := 0x0602
/-- ADMIT_DEFERRED (Table 12.9): A join found too few free sets, or waited under HOLD_ORDER. -/
def ADMIT_DEFERRED : Nat := 0x0603
/-- SEQ_STALLED (Table 12.9): A sequence could not refill its reserve. -/
def SEQ_STALLED : Nat := 0x0604
/-- BATCH_INVALID (Table 12.9): A batch descriptor failed R410. -/
def BATCH_INVALID : Nat := 0x0610
/-- BATCH_PENDING (Table 12.9): A descriptor arrived while another was pending. -/
def BATCH_PENDING : Nat := 0x0611
/-- SEQ_BUSY (Table 12.9): A join named a slot that was not RETIRED. -/
def SEQ_BUSY : Nat := 0x0612
/-- SEQ_LIMIT (Table 12.9): A refill would exceed SETS_MAX. -/
def SEQ_LIMIT : Nat := 0x0613
/-- POOL_CONFIG (Table 12.9): Pool parameters refused at creation. -/
def POOL_CONFIG : Nat := 0x0614
/-- SEQ_NOT_LIVE (Table 12.9): A departure named a RETIRED slot. -/
def SEQ_NOT_LIVE : Nat := 0x0615
/-- CTX_STATE_INVALID (Table 13.11): The command is not allowed in the context's state. -/
def CTX_STATE_INVALID : Nat := 0x0620
/-- CTX_NO_ID (Table 13.11): No free context id. -/
def CTX_NO_ID : Nat := 0x0621
/-- CTX_NO_MEMORY (Table 13.11): No region could hold the allocation. -/
def CTX_NO_MEMORY : Nat := 0x0622
/-- CTX_RANGES (Table 13.11): The list of 64 ranges is full, or a range removal named no range of the list (R432). -/
def CTX_RANGES : Nat := 0x0623
/-- CTX_HALLS_INVALID (Table 13.11): A hall mask is empty or names an offline hall. -/
def CTX_HALLS_INVALID : Nat := 0x0624
/-- LIVE_RANGE_INVALID (Table 13.11): A live-range declaration breaks R438. -/
def LIVE_RANGE_INVALID : Nat := 0x0625
/-- KEEP_MEMORY_LIMIT (Table 13.11): 8 contexts already hold KEEP_MEMORY. -/
def KEEP_MEMORY_LIMIT : Nat := 0x0626
/-- CTX_IMAGE_EVICTED (Table 13.11): A submission found an ACTIVE or DRAINING image evicted. -/
def CTX_IMAGE_EVICTED : Nat := 0x0627
/-- CTX_FAULTED (Table 13.11): The context became FAULTED while its kernel was in progress (R436). -/
def CTX_FAULTED : Nat := 0x0628
/-- BRIXAH_FORMAT (Table 13.11): A package or section is malformed. -/
def BRIXAH_FORMAT : Nat := 0x0630
/-- SHARD_MISMATCH (Table 13.11): A shard's header disagrees with its slot. -/
def SHARD_MISMATCH : Nat := 0x0631
/-- VERSION_NOT_READY (Table 13.11): The incoming version was not VERIFIED at the snapshot. -/
def VERSION_NOT_READY : Nat := 0x0632
/-- VERSION_SLOT_BUSY (Table 13.11): A load named an occupied slot. -/
def VERSION_SLOT_BUSY : Nat := 0x0633
/-- CACHE_FULL (Table 13.11): 256 images are resident and none can be evicted. -/
def CACHE_FULL : Nat := 0x0634
/-- ATTACH_DIGEST (Table 13.11): A digest of a context package failed. -/
def ATTACH_DIGEST : Nat := 0x0640
/-- ATTACH_INCOMPATIBLE (Table 13.11): A context package cannot be attached. -/
def ATTACH_INCOMPATIBLE : Nat := 0x0641
/-- REG_ACCESS (Table 14.8): A register access broke R13 (R16). -/
def REG_ACCESS : Nat := 0x0701
/-- FEATURE_NOT_ACCEPTED (Table 14.8): A feature that was not accepted is needed. -/
def FEATURE_NOT_ACCEPTED : Nat := 0x0702
/-- FEATURE_INVALID (Table 14.8): The lock was attempted with a bit that is not offered. -/
def FEATURE_INVALID : Nat := 0x0703
/-- FEATURE_LOCKED (Table 14.8): A feature register was written after the lock. -/
def FEATURE_LOCKED : Nat := 0x0704
/-- RING_STATE (Table 14.8): A ring was enabled, created or used in a state that forbids it, or with bad sizes. -/
def RING_STATE : Nat := 0x0705
/-- RING_DOORBELL (Table 14.8): A doorbell value was out of range. -/
def RING_DOORBELL : Nat := 0x0706
/-- RING_LIMIT (Table 14.8): A context already has 255 bound rings, or a ring number lies outside its function. -/
def RING_LIMIT : Nat := 0x0707
/-- CMD_OPCODE (Table 14.8): Unlisted opcode. -/
def CMD_OPCODE : Nat := 0x0708
/-- CMD_ENCODING (Table 14.8): A field that must be 0 is not 0, or an operand lies outside its range (R486). -/
def CMD_ENCODING : Nat := 0x0709
/-- CMD_CONTEXT (Table 14.8): CTX is not the bound context or not of the function. -/
def CMD_CONTEXT : Nat := 0x070A
/-- CMD_PRIVILEGE (Table 14.8): Wrong ring kind, or a VF limit was exceeded. -/
def CMD_PRIVILEGE : Nat := 0x070B
/-- CMD_ABORTED (Table 14.8): The command was withdrawn before it acted, because its context was destroyed, detached or made FAULTED (R489). -/
def CMD_ABORTED : Nat := 0x070C
/-- HOST_DMA (Table 14.8): A host read or write failed. -/
def HOST_DMA : Nat := 0x070D
/-- KERNEL_IMAGE (Table 14.8): The kernel image breaks Table 14.5. -/
def KERNEL_IMAGE : Nat := 0x070E
/-- CQ_FULL (Table 14.8): A completion was held for a full CQ. -/
def CQ_FULL : Nat := 0x070F
/-- LINK_LOST (Table 14.8): The link went down while rings were enabled. -/
def LINK_LOST : Nat := 0x0710
/-- VF_CONFIG_INVALID (Table 14.8): A VF_CONFIG was refused. -/
def VF_CONFIG_INVALID : Nat := 0x0711
/-- LINK_DOWN (Table 15.7): A port left service, or a packet was lost with it. -/
def LINK_DOWN : Nat := 0x0801
/-- LINK_RETRY_EXCEEDED (Table 15.7): Replay failed (R523). -/
def LINK_RETRY_EXCEEDED : Nat := 0x0802
/-- LINK_TRAIN_FAIL (Table 15.7): Training exceeded 2 s or lacked usable lanes. -/
def LINK_TRAIN_FAIL : Nat := 0x0803
/-- LINK_DEGRADED (Table 15.7): A port returned to service on fewer lanes. -/
def LINK_DEGRADED : Nat := 0x0804
/-- LINK_PEER_MISMATCH (Table 15.7): IDENT carried the port's own device id. -/
def LINK_PEER_MISMATCH : Nat := 0x0805
/-- LINK_RSP_TIMEOUT (Table 15.7): No ACK within 2 ms. -/
def LINK_RSP_TIMEOUT : Nat := 0x0806
/-- BULK_REFUSED (Table 15.7): An unsolicited BULK_READ or BULK_DATA was refused. -/
def BULK_REFUSED : Nat := 0x0807
/-- PTP_LOST (Table 15.7): The SLAVE port missed 8 Sync intervals. -/
def PTP_LOST : Nat := 0x0808
/-- ROUTE_CONFIG (Table 15.7): A device id or PTP role write was refused. -/
def ROUTE_CONFIG : Nat := 0x0809
/-- RESET_DEADLINE (Table 17.9): A step missed its deadline and escalated. -/
def RESET_DEADLINE : Nat := 0x0901
/-- DUMP_UNREACHABLE (Table 17.9): A unit did not answer its dump read. -/
def DUMP_UNREACHABLE : Nat := 0x0902
/-- REPLAY_FAILED (Table 17.9): A suspect failed its replay. -/
def REPLAY_FAILED : Nat := 0x0903
/-- REPLAY_NOT_DECLARED (Table 17.9): A suspect's kernel was not replayable. -/
def REPLAY_NOT_DECLARED : Nat := 0x0904
/-- REPLAY_PASSED (Table 17.9): A suspect passed its replay or was cleared. -/
def REPLAY_PASSED : Nat := 0x0905
/-- RESET_LOST (Table 17.9): A collateral kernel that was not replayable ended. -/
def RESET_LOST : Nat := 0x0906
/-- HALL_OFFLINE (Table 17.9): A hall that the context names is offline. -/
def HALL_OFFLINE : Nat := 0x0907
/-- RESET_REFUSED (Table 17.9): An RST_REQ was refused. -/
def RESET_REFUSED : Nat := 0x0908
/-- EXPORT_SPACE (Table 17.9): The destination is smaller than the package. -/
def EXPORT_SPACE : Nat := 0x0909
/-- EXPORT_ABORTED (Table 17.9): An export was overtaken. -/
def EXPORT_ABORTED : Nat := 0x090A
/-- SPARE_SWITCHED (Table 17.9): One or more spares were switched in. -/
def SPARE_SWITCHED : Nat := 0x090B
/-- POWER_CYCLE_REQ (Table 17.9): PWR_CYCLE_REQ_N was asserted. -/
def POWER_CYCLE_REQ : Nat := 0x090C
/-- IMAGE_SIG_FAIL (Table 18.7): A signature or payload digest failed. -/
def IMAGE_SIG_FAIL : Nat := 0x0A01
/-- IMAGE_FORMAT (Table 18.7): An image header is malformed. -/
def IMAGE_FORMAT : Nat := 0x0A02
/-- ROOT_KEY_MISMATCH (Table 18.7): An embedded key does not match the ROM hash. -/
def ROOT_KEY_MISMATCH : Nat := 0x0A03
/-- CONFIG_FACTORY_FAIL (Table 18.7): The factory part failed. -/
def CONFIG_FACTORY_FAIL : Nat := 0x0A04
/-- CFG_LIVE_UNVERIFIED (Table 18.7): No live copy verified. -/
def CFG_LIVE_UNVERIFIED : Nat := 0x0A05
/-- PUF_RECONSTRUCT_FAIL (Table 18.7): The PUF seed check failed. -/
def PUF_RECONSTRUCT_FAIL : Nat := 0x0A06
/-- CERT_KEY_MISMATCH (Table 18.7): The derived key differs from the certificate. -/
def CERT_KEY_MISMATCH : Nat := 0x0A07
/-- SEC_BUSY (Table 18.7): A command was written while BUSY. -/
def SEC_BUSY : Nat := 0x0A08
/-- SEC_NO_IDENTITY (Table 18.7): Identity is not READY for the command. -/
def SEC_NO_IDENTITY : Nat := 0x0A09
/-- SEC_CMD_INVALID (Table 18.7): Unknown opcode, bad argument, or not allowed in BOOT_FAILED. -/
def SEC_CMD_INVALID : Nat := 0x0A0A
/-- SEC_BANK_ACTIVE (Table 18.7): FLASH_WRITE named the running bank. -/
def SEC_BANK_ACTIVE : Nat := 0x0A0B
/-- SEC_FLASH_FAIL (Table 18.7): A flash write failed. -/
def SEC_FLASH_FAIL : Nat := 0x0A0C

end Sys2Proof.Machine.Code
end

