-- ==== Sys2Proof/Config.lean ====
section
/-! DEFINITION. The values the manual leaves open, as constants with no body: no proof can see a value of one. -/
namespace Sys2Proof.Config

/-- The free values: the k-th value that the manual leaves open in a run (log entry 3). -/
opaque freeBits : Nat → W64

/-- The error of the fixed functions of R686 in units in the last place, at most 2 either way after `clampUlp`
(log entry 4): which of the allowed values a function returns is left open. -/
opaque ulpError : Nat → Nat → Int

/-- The FP32 result of a fixed function at -infinity where IEEE 754 gives the exact function none (log entry 12). -/
opaque openAtInf : Nat → W32

/-- The error in units in the last place of the derivative of lane `i` in the k-th draw (R376, log entry 4). -/
opaque doutError : Nat → Nat → Int

/-- The place of the i-th summand in the k-th sum whose order the manual leaves open (R188, R293, log entry 3). -/
opaque sumOrder : Nat → Nat → Nat

/-- The byte at a key of the k-th range whose contents the manual leaves undefined (log entry 3). -/
opaque openByte : Nat → Nat → Byte

/-- The sort key of burst `i` in pass `p` of a random walk that a seed starts: the order of the walk is not published
(R331, log entry 3). -/
opaque walkKey : Nat → Nat → Nat → Nat

/-- The rate in parts per million by which the counter is slewed towards its source at a core cycle (R52, R53), held between 1
and 50 where it is used (log entry 5). -/
opaque slewPpm : Nat → Int

/-- The frequency correction in parts per million that the device works out at an offset measurement, by the core cycle of the
measurement, held within 50 either way where it is used (R50, R52, log entry 5). -/
opaque freqPpm : Nat → Int

/-- The bytes that the compressed block at an offset of a Zstandard frame gives, or none where the block is not a legal one
of RFC 8878: the block's own coding is no part of the manual (R449, log entry 6). -/
opaque zstdBlock : List Byte → Nat → Option (List Byte)

/-- The device certificate (0) and the device CA certificate (1), chosen when the module is made: at most 4,096 bytes are
taken (18 R610, log entry 7). -/
opaque certificate : Nat → List Byte

/-- The Vendor ID that PCI-SIG assigned to the maker (R467). -/
opaque vendorId : BitVec 16

/-- The modulus of the public key in an X.509 certificate (18 R610, log entry 7). -/
opaque certificateModulus : List Byte → Nat

/-- The hash of the root key in the mask ROM: SHA-256 of bytes 64 to 451 of an image that the vendor signed (18 R601, log entry 7). -/
opaque rootKeyHash : BitVec 256

/-- The SHA-256 of the seed, in the factory part of the configuration record (18 R608, log entry 7). -/
opaque seedCheck : BitVec 256

/-- The two primes that the probable-prime generation of FIPS 186-5 finds from the key and the value of an HMAC_DRBG (18 R609, log
entry 119). -/
opaque primes : List Byte → List Byte → Nat × Nat

/-- The byte at an offset of the module flash that no FLASH_WRITE has written (18 Table 18.1, log entry 7). -/
opaque flashByte : Nat → Byte

/-- The SHA-256 of a live copy with the given content: its sections are not laid out (18 R605, Table 18.5, log entry 7). -/
opaque liveDigest : List Nat → BitVec 256

/-- The transmit (even) and receive (odd) latency corrections of the Garrid ports, port by port, in units of the time counter,
held in the factory part of the configuration record (15 R544, 18 R605, log entry 22). -/
opaque ptpLatency : Nat → Nat

/-- The straps ADDR2 to ADDR0 of the host connector (20 R658, log entry 23). -/
opaque smbAddr : BitVec 3

end Sys2Proof.Config
end

