-- ==== Sys2Proof/Machine/RegMap.lean ====
section
/-! DEFINITION. The registers of BAR0: where each one stands, how wide it is, who may write which of its bits and its
reset value, row for row from the register tables of the chapters (R12, R18, R20; the index is Table 21.5). -/
namespace Sys2Proof.Machine

/-- The access codes of Table 0.4. -/
inductive Access where
  | ro | rw | rw1c | wo | rc
deriving DecidableEq, Repr

/-- One row of a register map. `dims` gives stride and count of each index, the widest stride first; `rw` and `w1c`
are the bits of access RW and RW1C; `width` is in bytes. -/
structure RegRow where
  off : Nat
  dims : List (Nat × Nat)
  width : Nat
  access : Access
  rw : Nat
  w1c : Nat
  reset : Nat
deriving DecidableEq, Repr

namespace Reg

/-- Table 1.3: Fixed dimensions of the grid. -/
def DEV_GRID_SHAPE : Nat := 0x200
/-- Table 1.3: One bit per hall that is in service. -/
def DEV_HALL_ONLINE : Nat := 0x204
/-- Table 1.3: Device-wide spare count and deficient galleries. -/
def DEV_SPARE_SUMMARY : Nat := 0x208
/-- Table 1.5: Slot that serves logical position p of gallery j. 250 registers, ending at 0x07E4. -/
def HAL_REMAP (h i : Nat) : Nat := 0x1000400 + 0x100000 * h + 0x4 * i
/-- Table 1.5: State of slot s of gallery j. 270 registers, ending at 0x0C34. -/
def HAL_SLOT (h i : Nat) : Nat := 0x1000800 + 0x100000 * h + 0x4 * i
/-- Table 1.5: Rewrite generation of this hall's remap tables and slot states. -/
def HAL_REMAP_GEN (h : Nat) : Nat := 0x1001000 + 0x100000 * h
/-- Table 1.5: SPARE slots per gallery of this hall. -/
def HAL_GALLERY_SPARES (h : Nat) : Nat := 0x1001004 + 0x100000 * h
/-- Table 2.5: Run, source, unlocked operation. -/
def FTK_CTRL : Nat := 0x100000
/-- Table 2.5: Discipline state, ticking, last code. -/
def FTK_STATUS : Nat := 0x100004
/-- Table 2.5: Capture counter and frame. -/
def FTK_SNAP : Nat := 0x100008
/-- Table 2.5: Captured seconds. -/
def FTK_SNAP_SEC : Nat := 0x100010
/-- Table 2.5: Captured nanoseconds and fraction. -/
def FTK_SNAP_NSF : Nat := 0x100018
/-- Table 2.5: Captured frame number. -/
def FTK_SNAP_FRAME : Nat := 0x100020
/-- Table 2.5: Seconds to set. -/
def FTK_SET_SEC : Nat := 0x100028
/-- Table 2.5: Nanoseconds to set. -/
def FTK_SET_NS : Nat := 0x100030
/-- Table 2.5: Load the counter. -/
def FTK_SET : Nat := 0x100034
/-- Table 2.5: Offset from the source. -/
def FTK_OFFSET : Nat := 0x100038
/-- Table 2.5: Lock threshold. -/
def FTK_LOCK_NS : Nat := 0x10003c
/-- Table 2.5: Frame period, 200,000 ns. -/
def FTK_PERIOD : Nat := 0x100040
/-- Table 2.5: Landing length, 6,000 ns. -/
def FTK_LANDING : Nat := 0x100044
/-- Table 2.5: Step 2 window, 1,500 ns. -/
def FTK_OR_WINDOW : Nat := 0x100048
/-- Table 2.5: Array ramp, 32 cycles. -/
def FTK_RAMP : Nat := 0x10004c
/-- Table 2.5: Epoch seconds. -/
def FTK_EPOCH_SEC : Nat := 0x100050
/-- Table 2.5: Epoch nanoseconds. -/
def FTK_EPOCH_NS : Nat := 0x100058
/-- Table 2.5: budget(159), 338,369 cycles. -/
def FTK_BUDGET : Nat := 0x10005c
/-- Table 2.5: Current frame number. -/
def FTK_FRAME : Nat := 0x100060
/-- Table 2.5: Holdover limit, 60 s. -/
def FTK_HOLDOVER_LIMIT : Nat := 0x100068
/-- Table 2.5: 1PPS_OUT mode. -/
def FTK_PPS_CTRL : Nat := 0x10006c
/-- Table 2.5: Seconds at the last 1PPS_IN edge. -/
def FTK_PPS_IN_SEC : Nat := 0x100070
/-- Table 2.5: Nanoseconds and fraction at that edge. -/
def FTK_PPS_IN_NSF : Nat := 0x100078
/-- Table 2.5: Frame-skew tolerance. -/
def FTK_SKEW_TOL : Nat := 0x100080
/-- Table 2.5: Frame-skew events. -/
def FTK_SKEW_COUNT : Nat := 0x100084
/-- Table 2.5: Landings that ran past the tick. -/
def FTK_LANDING_OVERRUNS : Nat := 0x100088
/-- Table 2.5: Longest landing since last read, in ns. -/
def FTK_LANDING_MAX : Nat := 0x10008c
/-- Table 2.7: Overrun policy and hang threshold. -/
def HAL_FRAME_POLICY (h : Nat) : Nat := 0x1001100 + 0x100000 * h
/-- Table 2.7: Frames with an overrun, late-start frames excluded. -/
def HAL_OVERRUN_COUNT (h : Nat) : Nat := 0x1001104 + 0x100000 * h
/-- Table 2.7: Late-start frames with an overrun. -/
def HAL_LATE_COUNT (h : Nat) : Nat := 0x1001108 + 0x100000 * h
/-- Table 2.7: Most recent overrun. -/
def HAL_OVERRUN_INFO (h : Nat) : Nat := 0x100110c + 0x100000 * h
/-- Table 2.7: Frame number of that overrun. -/
def HAL_OVERRUN_FRAME (h : Nat) : Nat := 0x1001110 + 0x100000 * h
/-- Table 2.7: Current no-progress count. -/
def HAL_NOPROGRESS (h : Nat) : Nat := 0x1001118 + 0x100000 * h
/-- Table 4.6: Array counts of logical position p of gallery j for the last window. 250 registers, ending at 0x27C8. -/
def HAL_FILL (h i : Nat) : Nat := 0x1002000 + 0x100000 * h + 0x8 * i
/-- Table 4.6: Sums of the 250 cores' counts for the same window. -/
def HAL_FILL_SUM (h : Nat) : Nat := 0x1002800 + 0x100000 * h
/-- Table 4.6: Frame whose landing took the copy. -/
def HAL_FILL_FRAME (h : Nat) : Nat := 0x1002808 + 0x100000 * h
/-- Table 5.8: Collections at which the hall contributed a set flag. -/
def HAL_OVF_FRAMES (h : Nat) : Nat := 0x1002900 + 0x100000 * h
/-- Table 5.8: Most recent such collection. -/
def HAL_OVF_LAST (h : Nat) : Nat := 0x1002904 + 0x100000 * h
/-- Table 5.8: Frame whose landing made that collection. -/
def HAL_OVF_FRAME (h : Nat) : Nat := 0x1002908 + 0x100000 * h
/-- Table 5.8: Trap enables. -/
def HAL_NUMTRAP_CTRL (h : Nat) : Nat := 0x1002910 + 0x100000 * h
/-- Table 5.8: NUMERIC_TRAP raises. -/
def HAL_NUMTRAP_COUNT (h : Nat) : Nat := 0x1002914 + 0x100000 * h
/-- Table 7.10: Most recent step refused at issue. -/
def HAL_SEQ_FAULT (h : Nat) : Nat := 0x1002a00 + 0x100000 * h
/-- Table 7.10: Frame of that refusal. -/
def HAL_SEQ_FAULT_FRAME (h : Nat) : Nat := 0x1002a08 + 0x100000 * h
/-- Table 7.10: Refusals at issue. -/
def HAL_SEQ_FAULT_COUNT (h : Nat) : Nat := 0x1002a10 + 0x100000 * h
/-- Table 8.9: Most recent abandoned MOVER step. -/
def HAL_MOV_FAULT (h : Nat) : Nat := 0x1002b00 + 0x100000 * h
/-- Table 8.9: Frame of that fault. -/
def HAL_MOV_FAULT_FRAME (h : Nat) : Nat := 0x1002b08 + 0x100000 * h
/-- Table 8.9: Abandoned MOVER steps. -/
def HAL_MOV_FAULT_COUNT (h : Nat) : Nat := 0x1002b10 + 0x100000 * h
/-- Table 8.9: Faulting index value. -/
def HAL_MOV_FAULT_INDEX (h : Nat) : Nat := 0x1002b14 + 0x100000 * h
/-- Table 8.9: Rows resolved to +0 or skipped under ZERO. -/
def HAL_IDX_ZERO_COUNT (h : Nat) : Nat := 0x1002b18 + 0x100000 * h
/-- Table 8.9: Narrow-path accesses of the hall. -/
def HAL_NARROW_COUNT (h : Nat) : Nat := 0x1002b20 + 0x100000 * h
/-- Table 9.9: Regions that are online. -/
def MEM_REGION_ONLINE : Nat := 0x2000000
/-- Table 9.9: Patrol scrub enable and period. -/
def MEM_SCRUB_CTRL : Nat := 0x2000004
/-- Table 9.9: Completed HBM scrub passes. -/
def MEM_SCRUB_PASS : Nat := 0x2000008
/-- Table 9.9: Page to look up. -/
def MEM_POT_QUERY : Nat := 0x2000010
/-- Table 9.9: Entry of the page last queried. -/
def MEM_POT_ENTRY : Nat := 0x2000018
/-- Table 9.9: Corrected HBM errors, device-wide. -/
def MEM_CE_TOTAL : Nat := 0x2000020
/-- Table 9.9: Uncorrectable HBM sectors, device-wide. -/
def MEM_UE_TOTAL : Nat := 0x2000024
/-- Table 9.9: Address of the most recent uncorrectable sector. -/
def MEM_LAST_UE : Nat := 0x2000028
/-- Table 9.11: Test request. -/
def MEM_CH_CTRL (c : Nat) : Nat := 0x2010000 + 0x100 * c
/-- Table 9.11: Channel state. -/
def MEM_CH_STATUS (c : Nat) : Nat := 0x2010004 + 0x100 * c
/-- Table 9.11: Corrected errors. -/
def MEM_CH_CE (c : Nat) : Nat := 0x2010008 + 0x100 * c
/-- Table 9.11: Uncorrectable sectors. -/
def MEM_CH_UE (c : Nat) : Nat := 0x201000c + 0x100 * c
/-- Table 9.11: Most recent ECC event. -/
def MEM_CH_ERR_ADDR (c : Nat) : Nat := 0x2010010 + 0x100 * c
/-- Table 9.11: Generator control. -/
def MEM_TG_CTRL (c : Nat) : Nat := 0x2010020 + 0x100 * c
/-- Table 9.11: Generator status. -/
def MEM_TG_STATUS (c : Nat) : Nat := 0x2010024 + 0x100 * c
/-- Table 9.11: Pattern and walk seed. -/
def MEM_TG_SEED (c : Nat) : Nat := 0x2010028 + 0x100 * c
/-- Table 9.11: First local address. -/
def MEM_TG_START (c : Nat) : Nat := 0x2010030 + 0x100 * c
/-- Table 9.11: Last local address. -/
def MEM_TG_END (c : Nat) : Nat := 0x2010034 + 0x100 * c
/-- Table 9.11: Stride, in bursts. -/
def MEM_TG_STRIDE (c : Nat) : Nat := 0x2010038 + 0x100 * c
/-- Table 9.11: Operations to perform. -/
def MEM_TG_OPS (c : Nat) : Nat := 0x2010040 + 0x100 * c
/-- Table 9.11: Operations performed. -/
def MEM_TG_DONE (c : Nat) : Nat := 0x2010048 + 0x100 * c
/-- Table 9.11: Cycles since START. -/
def MEM_TG_CYCLES (c : Nat) : Nat := 0x2010050 + 0x100 * c
/-- Table 9.11: Mismatching bursts. -/
def MEM_TG_ERRS (c : Nat) : Nat := 0x2010058 + 0x100 * c
/-- Table 9.11: First mismatching burst. -/
def MEM_TG_ERR_ADDR (c : Nat) : Nat := 0x201005c + 0x100 * c
/-- Table 9.11: Expected word. -/
def MEM_TG_ERR_EXP (c : Nat) : Nat := 0x2010060 + 0x100 * c
/-- Table 9.11: Word read. -/
def MEM_TG_ERR_ACT (c : Nat) : Nat := 0x2010068 + 0x100 * c
/-- Table 9.11: USER pattern. -/
def MEM_TG_USER (c : Nat) : Nat := 0x2010070 + 0x100 * c
/-- Table 9.13: Most recent ownership or ECC fault of the hall. -/
def HAL_MEM_FAULT (h : Nat) : Nat := 0x1002c00 + 0x100000 * h
/-- Table 9.13: Address of that fault. -/
def HAL_MEM_FAULT_ADDR (h : Nat) : Nat := 0x1002c08 + 0x100000 * h
/-- Table 9.13: Frame of that fault. -/
def HAL_MEM_FAULT_FRAME (h : Nat) : Nat := 0x1002c10 + 0x100000 * h
/-- Table 9.13: Ownership-cache hits. -/
def HAL_OWN_HIT (h : Nat) : Nat := 0x1002c18 + 0x100000 * h
/-- Table 9.13: Ownership-cache misses. -/
def HAL_OWN_MISS (h : Nat) : Nat := 0x1002c20 + 0x100000 * h
/-- Table 9.13: Bytes passed by the far regulator. -/
def HAL_FAR_BYTES (h : Nat) : Nat := 0x1002c28 + 0x100000 * h
/-- Table 9.13: Cycles that requests waited at the regulator. -/
def HAL_FAR_STALL (h : Nat) : Nat := 0x1002c30 + 0x100000 * h
/-- Table 9.13: Corrected alcove errors. -/
def HAL_ECC_ALC_CE (h : Nat) : Nat := 0x1002c38 + 0x100000 * h
/-- Table 9.13: Corrected mezzanine errors. -/
def HAL_ECC_MEZ_CE (h : Nat) : Nat := 0x1002c3c + 0x100000 * h
/-- Table 10.9: Most recent message fault. -/
def HAL_MSG_FAULT (h : Nat) : Nat := 0x1002d00 + 0x100000 * h
/-- Table 10.9: Frame of that fault. -/
def HAL_MSG_FAULT_FRAME (h : Nat) : Nat := 0x1002d08 + 0x100000 * h
/-- Table 10.9: Message faults. -/
def HAL_MSG_FAULT_COUNT (h : Nat) : Nat := 0x1002d10 + 0x100000 * h
/-- Table 10.9: Destination of that fault. -/
def HAL_MSG_FAULT_PEER (h : Nat) : Nat := 0x1002d14 + 0x100000 * h
/-- Table 10.9: Stale packets discarded at the hall's cores. -/
def HAL_EPOCH_STALE (h : Nat) : Nat := 0x1002d18 + 0x100000 * h
/-- Table 10.9: Packets answered EPOCH_AHEAD. -/
def HAL_EPOCH_AHEAD (h : Nat) : Nat := 0x1002d1c + 0x100000 * h
/-- Table 10.9: Grants of COUNT 0 received by the hall's cores. -/
def HAL_CREDIT_WAITS (h : Nat) : Nat := 0x1002d20 + 0x100000 * h
/-- Table 10.9: MSG packets dropped for an absent job. -/
def HAL_MSG_RX_DROPS (h : Nat) : Nat := 0x1002d24 + 0x100000 * h
/-- Table 10.9: Deadlock threshold. -/
def HAL_MESH_STUCK (h : Nat) : Nat := 0x1002d28 + 0x100000 * h
/-- Table 11.8: Enable, bound context, rounds, peer count. -/
def CTX_LS_CTRL (k : Nat) : Nat := 0x340e000 + 0x100 * k
/-- Table 11.8: Exponent limits and doubling interval. -/
def CTX_LS_LIMITS (k : Nat) : Nat := 0x340e004 + 0x100 * k
/-- Table 11.8: Current exponent and clean count. -/
def CTX_LS_STATE (k : Nat) : Nat := 0x340e008 + 0x100 * k
/-- Table 11.8: Decision request. -/
def CTX_LS_DECIDE (k : Nat) : Nat := 0x340e010 + 0x100 * k
/-- Table 11.8: Pending request, step overflow, divergence. -/
def CTX_LS_STATUS (k : Nat) : Nat := 0x340e018 + 0x100 * k
/-- Table 11.8: Decisions taken. -/
def CTX_LS_STEP (k : Nat) : Nat := 0x340e01c + 0x100 * k
/-- Table 11.8: Address of the loss-scale record. -/
def CTX_LS_REC (k : Nat) : Nat := 0x340e020 + 0x100 * k
/-- Table 11.8: Landing-flag messages missed. -/
def CTX_LS_MISSED (k : Nat) : Nat := 0x340e028 + 0x100 * k
/-- Table 11.8: Decisions with SKIP = 1. -/
def CTX_LS_SKIPS (k : Nat) : Nat := 0x340e02c + 0x100 * k
/-- Table 11.8: Peer device ids 2i and 2i + 1, i = 0 to 15. -/
def CTX_LS_PEER (k i : Nat) : Nat := 0x340e040 + 0x100 * k + 0x4 * i
/-- Table 12.10: Context shown. -/
def CTX_GEN_SEL : Nat := 0x340f000
/-- Table 12.10: Pending descriptor and last code. -/
def CTX_GEN_STATUS : Nat := 0x340f004
/-- Table 12.10: Total and free page sets. -/
def CTX_GEN_SETS : Nat := 0x340f008
/-- Table 12.10: Sequences by state, rows. -/
def CTX_GEN_SEQS : Nat := 0x340f010
/-- Table 12.10: Frame of the current row table. -/
def CTX_GEN_FRAME : Nat := 0x340f018
/-- Table 12.10: SEQ_STALLED and SEQ_LIMIT events. -/
def CTX_GEN_STALLS : Nat := 0x340f020
/-- Table 12.10: Landings at which a join was or stayed deferred. -/
def CTX_GEN_DEFERS : Nat := 0x340f024
/-- Table 12.10: Skipped rows written to row tables. -/
def CTX_GEN_SKIPS : Nat := 0x340f028
/-- Table 12.10: Sequences retired by departure. -/
def CTX_GEN_DEPARTS : Nat := 0x340f02c
/-- Table 13.12: Context shown. -/
def CTX_SEL : Nat := 0x3400000
/-- Table 13.12: State, priority, flags. -/
def CTX_STATE : Nat := 0x3400004
/-- Table 13.12: Halls named and held. -/
def CTX_HALLS : Nat := 0x3400008
/-- Table 13.12: Job tag and range count. -/
def CTX_JOB : Nat := 0x340000c
/-- Table 13.12: Frame of the last state change. -/
def CTX_CHANGE_FRAME : Nat := 0x3400010
/-- Table 13.12: Durations of the last spill and restore. -/
def CTX_SPILL : Nat := 0x3400018
/-- Table 13.12: Times the context lost its halls. -/
def CTX_PREEMPTS : Nat := 0x3400020
/-- Table 13.12: Declared live bytes per core. -/
def CTX_LIVE : Nat := 0x3400024
/-- Table 13.12: Contexts in use and resident images. -/
def CTX_COUNTS : Nat := 0x3400100
/-- Table 13.12: Fetch timeout, 60 s. -/
def CTX_LOAD_TIMEOUT : Nat := 0x3400104
/-- Table 13.12: Re-check enable and interval. -/
def CTX_RECHECK : Nat := 0x3400108
/-- Table 13.12: Completed re-check passes. -/
def CTX_RECHECK_PASS : Nat := 0x340010c
/-- Table 13.12: Images evicted. -/
def CTX_EVICTIONS : Nat := 0x3400110
/-- Table 13.12: DIGEST_FAIL events. -/
def CTX_DIGEST_FAILS : Nat := 0x3400114
/-- Table 13.12: Context and model shown. -/
def CTX_MODEL_SEL : Nat := 0x3400200
/-- Table 13.12: Slot states. -/
def CTX_VER_STATE : Nat := 0x3400204
/-- Table 13.12: Pin counts. -/
def CTX_VER_PINS : Nat := 0x3400208
/-- Table 13.12: VERSION of each slot. -/
def CTX_VER_NUM : Nat := 0x3400210
/-- Table 13.12: Image base of slot 0. -/
def CTX_VER_BASE0 : Nat := 0x3400218
/-- Table 13.12: Image base of slot 1. -/
def CTX_VER_BASE1 : Nat := 0x3400220
/-- Table 13.12: Shard progress of the incoming slot. -/
def CTX_SHARDS : Nat := 0x3400228
/-- Table 14.9: Offered bits 63 to 0. -/
def DEV_FEATURE_OFFER0 : Nat := 0x300
/-- Table 14.9: Offered bits 127 to 64. -/
def DEV_FEATURE_OFFER1 : Nat := 0x308
/-- Table 14.9: Accepted bits 63 to 0. -/
def DEV_FEATURE_ACCEPT0 : Nat := 0x310
/-- Table 14.9: Accepted bits 127 to 64. -/
def DEV_FEATURE_ACCEPT1 : Nat := 0x318
/-- Table 14.9: Lock and last code. -/
def DEV_FEATURE_CTRL : Nat := 0x320
/-- Table 14.10: Link and last code. LAST_CODE resets to 0; the link fields follow the link (R510). -/
def HST_STATUS : Nat := 0x200000
/-- Table 14.10: Admin SQ bus address. -/
def HST_ADMIN_SQ : Nat := 0x200008
/-- Table 14.10: Admin CQ bus address. -/
def HST_ADMIN_CQ : Nat := 0x200010
/-- Table 14.10: Admin ring enable, state, sizes and vector. -/
def HST_ADMIN_CFG : Nat := 0x200018
/-- Table 14.10: Vector for device events. -/
def HST_EVT_VECTOR : Nat := 0x20001c
/-- Table 14.10: Base of the PF's BAR4 window. -/
def HST_BAR4_BASE : Nat := 0x200020
/-- Table 14.10: Ring to inspect. -/
def HST_RING_QUERY : Nat := 0x200028
/-- Table 14.10: State of that ring, valid 1 µs after the query. -/
def HST_RING_INFO : Nat := 0x200030
/-- Table 14.10: Discarded doorbells. -/
def HST_DB_DROPS : Nat := 0x200038
/-- Table 14.10: Held completions. -/
def HST_CQ_STALLS : Nat := 0x20003c
/-- Table 14.10: Link losses. -/
def HST_LINK_LOSSES : Nat := 0x200040
/-- Table 14.10: Mailbox of ring n, n = 0 to 65,535. -/
def HST_MBOX (n : Nat) : Nat := 0x280000 + 0x8 * n
/-- Table 15.8: Device id. -/
def GAR_DEVICE_ID : Nat := 0x2800000
/-- Table 15.8: Domain and Sync rate. -/
def GAR_PTP_CFG : Nat := 0x2800004
/-- Table 15.8: Slave port and last code. -/
def GAR_PTP_STATUS : Nat := 0x2800008
/-- Table 15.8: Discarded PTP messages. -/
def GAR_PTP_DISCARDS : Nat := 0x280000c
/-- Table 15.8: Bulk serving and receiving. -/
def GAR_BULK_CTRL : Nat := 0x2800010
/-- Table 15.8: Bytes served to BULK_READ requests. -/
def GAR_BULK_SERVED : Nat := 0x2800018
/-- Table 15.8: Bytes accepted from unsolicited BULK_DATA. -/
def GAR_BULK_RECEIVED : Nat := 0x2800020
/-- Table 15.8: Enable, limits. -/
def GAR_PORT_CTRL (p : Nat) : Nat := 0x2800100 + 0x100 * p
/-- Table 15.8: State, lanes, peer. -/
def GAR_PORT_STATUS (p : Nat) : Nat := 0x2800104 + 0x100 * p
/-- Table 15.8: Last link-group code of the port. -/
def GAR_PORT_CODE (p : Nat) : Nat := 0x2800108 + 0x100 * p
/-- Table 15.8: Uncorrectable codewords and discarded headers. -/
def GAR_PORT_UE (p : Nat) : Nat := 0x2800110 + 0x100 * p
/-- Table 15.8: REPLAY_REQ slots sent. -/
def GAR_PORT_REPLAYS (p : Nat) : Nat := 0x2800114 + 0x100 * p
/-- Table 15.8: Corrected symbols. -/
def GAR_PORT_CE (p : Nat) : Nat := 0x2800118 + 0x100 * p
/-- Table 15.8: PTP role and asymmetry. -/
def GAR_PORT_PTP (p : Nat) : Nat := 0x2800120 + 0x100 * p
/-- Table 15.8: Mean path delay. -/
def GAR_PORT_DELAY (p : Nat) : Nat := 0x2800124 + 0x100 * p
/-- Table 15.8: Scan result of lane l, l = 0 to 3. -/
def GAR_LANE_MARGIN (p l : Nat) : Nat := 0x2800140 + 0x100 * p + 0x8 * l
/-- Table 15.8: Start a scan. -/
def GAR_MARGIN_CTRL (p : Nat) : Nat := 0x2800160 + 0x100 * p
/-- Table 15.8: Routing entry of device id, ending at 0x4_FFFC. -/
def GAR_ROUTE (id : Nat) : Nat := 0x2810000 + 0x4 * id
/-- Table 16.6: Latch, pin and event classes. -/
def FLT_CTRL : Nat := 0x3000000
/-- Table 16.6: Ready, pin, pending summary. -/
def FLT_STATUS : Nat := 0x3000004
/-- Table 16.6: Device latch. -/
def FLT_DEV_LATCH : Nat := 0x3000010
/-- Table 16.6: Seconds of the latched event. -/
def FLT_DEV_LATCH_SEC : Nat := 0x3000018
/-- Table 16.6: Nanoseconds and fraction. -/
def FLT_DEV_LATCH_NSF : Nat := 0x3000020
/-- Table 16.6: Frame number. -/
def FLT_DEV_LATCH_FRAME : Nat := 0x3000028
/-- Table 16.6: Pending classes, device scope. -/
def FLT_DEV_PEND : Nat := 0x3000030
/-- Table 16.6: Re-arm the device latch. -/
def FLT_DEV_CLEAR : Nat := 0x3000034
/-- Table 16.6: Escalation and mask of source s. -/
def FLT_SRC_CFG (src : Nat) : Nat := 0x3001000 + 0x80 * src
/-- Table 16.6: Scope, tag, base class. -/
def FLT_SRC_INFO (src : Nat) : Nat := 0x3001004 + 0x80 * src
/-- Table 16.6: Events of instance i: hall i for hall scope, i = 0 only for device scope. Ends at 0x3FFC. -/
def FLT_SRC_COUNT (src i : Nat) : Nat := 0x3001040 + 0x80 * src + 0x4 * i
/-- Table 16.7: Hall latch. -/
def HAL_FLT_LATCH (h : Nat) : Nat := 0x1003000 + 0x100000 * h
/-- Table 16.7: Seconds of the latched event. -/
def HAL_FLT_LATCH_SEC (h : Nat) : Nat := 0x1003008 + 0x100000 * h
/-- Table 16.7: Nanoseconds and fraction. -/
def HAL_FLT_LATCH_NSF (h : Nat) : Nat := 0x1003010 + 0x100000 * h
/-- Table 16.7: Frame number. -/
def HAL_FLT_LATCH_FRAME (h : Nat) : Nat := 0x1003018 + 0x100000 * h
/-- Table 16.7: Pending classes, this hall. -/
def HAL_FLT_PEND (h : Nat) : Nat := 0x1003020 + 0x100000 * h
/-- Table 16.7: Re-arm the hall latch. -/
def HAL_FLT_CLEAR (h : Nat) : Nat := 0x1003024 + 0x100000 * h
/-- Table 17.10: Suspect look-back. -/
def RST_CTRL : Nat := 0x3100000
/-- Table 17.10: Die steps, power-cycle request, last code. -/
def RST_STATUS : Nat := 0x3100004
/-- Table 17.10: Operator request. -/
def RST_REQ : Nat := 0x3100008
/-- Table 17.10: Frames per replay. -/
def RST_REPLAY_LIMIT : Nat := 0x310000c
/-- Table 17.10: Last step ended. -/
def RST_LAST : Nat := 0x3100010
/-- Table 17.10: Frame at its start. -/
def RST_LAST_FRAME : Nat := 0x3100018
/-- Table 17.10: Host buffer bus address. -/
def RST_DUMP_HOST : Nat := 0x3100020
/-- Table 17.10: Host buffer size. -/
def RST_DUMP_HOST_BYTES : Nat := 0x3100028
/-- Table 17.10: Copy a dump to the host. -/
def RST_DUMP_COPY : Nat := 0x310002c
/-- Table 17.10: Offset of the next dump. -/
def RST_DUMP_HEAD : Nat := 0x3100030
/-- Table 17.10: Offset of the last dump. -/
def RST_DUMP_LAST : Nat := 0x3100034
/-- Table 17.10: SERIAL of the last dump. -/
def RST_DUMP_SERIAL : Nat := 0x3100038
/-- Table 17.10: Host copy status. -/
def RST_DUMP_STATUS : Nat := 0x310003c
/-- Table 17.10: Compute-only hall resets. -/
def RST_CNT_COMPUTE : Nat := 0x3100040
/-- Table 17.10: Hall resets. -/
def RST_CNT_HALL : Nat := 0x3100044
/-- Table 17.10: Die resets. -/
def RST_CNT_DIE : Nat := 0x3100048
/-- Table 17.10: Device resets. -/
def RST_CNT_DEVICE : Nat := 0x310004c
/-- Table 17.10: Missed deadlines. -/
def RST_CNT_ESCALATE : Nat := 0x3100050
/-- Table 17.10: Replays run. -/
def RST_CNT_REPLAY : Nat := 0x3100054
/-- Table 17.10: Replays failed. -/
def RST_CNT_REPLAY_FAIL : Nat := 0x3100058
/-- Table 17.10: Spares switched in. -/
def RST_CNT_SPARES : Nat := 0x310005c
/-- Table 17.10: Recovery of hall h, ending at 0x0178. -/
def RST_HALL (h : Nat) : Nat := 0x3100100 + 0x8 * h
/-- Table 17.12: Packets and requests discarded at balustrades. -/
def HAL_QUARANTINE_DROPS (h : Nat) : Nat := 0x1003100 + 0x100000 * h
/-- Table 17.12: Slot of the most recent discard. -/
def HAL_QDROP_LAST (h : Nat) : Nat := 0x1003104 + 0x100000 * h
/-- Table 18.8: Boot state, identity, bank. -/
def SEC_STATUS : Nat := 0x3300000
/-- Table 18.8: Opcode. -/
def SEC_MB_CMD : Nat := 0x3300004
/-- Table 18.8: Busy, done, length, code. -/
def SEC_MB_STATUS : Nat := 0x3300008
/-- Table 18.8: Argument 0. -/
def SEC_MB_ARG0 : Nat := 0x330000c
/-- Table 18.8: Argument 1. -/
def SEC_MB_ARG1 : Nat := 0x3300010
/-- Table 18.8: Serial from the factory part. -/
def SEC_SERIAL : Nat := 0x3300018
/-- Table 18.8: GEN of the live copy in use. -/
def SEC_LIVE_GEN : Nat := 0x3300020
/-- Table 18.8: 4 KiB data window, 512 registers, ending at 0x1FFF. -/
def SEC_MB_WINDOW (i : Nat) : Nat := 0x3301000 + 0x8 * i
/-- Table 19.5: Class and duty in force, brake. -/
def PWR_STATUS : Nat := 0x3200000
/-- Table 19.5: Requested class. -/
def PWR_CLASS_REQ : Nat := 0x3200004
/-- Table 19.5: Input voltage and power, 1 ms average. -/
def PWR_INPUT : Nat := 0x3200008
/-- Table 19.5: Highest 10 µs average since the last read. -/
def PWR_INPUT_PEAK : Nat := 0x320000c
/-- Table 19.5: Input energy since the last device reset. -/
def PWR_ENERGY : Nat := 0x3200010
/-- Table 19.5: POWER_TRANSIENT events. -/
def PWR_TRANSIENTS : Nat := 0x3200018
/-- Table 19.5: Sensor n, n = 0 to 29, ending at 0x0174. -/
def PWR_TEMP (n : Nat) : Nat := 0x3200100 + 0x4 * n
/-- Table 19.5: Rail r, r = 0 to 33, ending at 0x0308. -/
def PWR_RAIL (r : Nat) : Nat := 0x3200200 + 0x8 * r
/-- Table 19.5: Plan enable, automatic step, guardbands, interval. -/
def PWR_MARGIN_CTRL : Nat := 0x3200400
/-- Table 19.5: Request a maintenance landing. -/
def PWR_MAINT_REQ : Nat := 0x3200404
/-- Table 19.5: Result of the last recomputation. -/
def PWR_MARGIN_STATUS : Nat := 0x3200408
/-- Table 19.5: Frame of that recomputation. -/
def PWR_MARGIN_FRAME : Nat := 0x3200410
/-- Table 19.5: Target and worst slack of hall h, ending at 0x053C. -/
def PWR_VCORE_PLAN (h : Nat) : Nat := 0x3200500 + 0x4 * h
/-- Table 19.5: Worst slot of gallery g, ending at 0x087C. -/
def PWR_GALLERY_SLACK (g : Nat) : Nat := 0x3200600 + 0x4 * g
/-- Table 21.3: Part and revision. -/
def DEV_ID : Nat := 0x0
/-- Table 21.3: Phase and elapsed time. -/
def DEV_BRINGUP : Nat := 0x8
/-- Table 21.3: Outcome of the last bring-up. -/
def DEV_SELFTEST : Nat := 0x10

end Reg

/-- The DEV block. -/
def rowsDEV : List RegRow := [
  ⟨0x200, [], 4, .ro, 0x0, 0x0, 0x1b3250⟩,
  ⟨0x204, [], 4, .ro, 0x0, 0x0, 0x0⟩,
  ⟨0x208, [], 4, .ro, 0x0, 0x0, 0x0⟩,
  ⟨0x300, [], 8, .ro, 0x0, 0x0, 0x1fff⟩,
  ⟨0x308, [], 8, .ro, 0x0, 0x0, 0x0⟩,
  ⟨0x310, [], 8, .rw, 0xffffffffffffffff, 0x0, 0x0⟩,
  ⟨0x318, [], 8, .rw, 0xffffffffffffffff, 0x0, 0x0⟩,
  ⟨0x320, [], 4, .rw, 0x1, 0x0, 0x0⟩,
  ⟨0x0, [], 4, .ro, 0x0, 0x0, 0x40000100⟩,
  ⟨0x8, [], 4, .ro, 0x0, 0x0, 0x0⟩,
  ⟨0x10, [], 8, .ro, 0x0, 0x0, 0x0⟩]

/-- The FTK block. -/
def rowsFTK : List RegRow := [
  ⟨0x100000, [], 4, .rw, 0xe1, 0x0, 0x0⟩,
  ⟨0x100004, [], 4, .ro, 0x0, 0x0, 0x0⟩,
  ⟨0x100008, [], 4, .wo, 0x0, 0x0, 0x0⟩,
  ⟨0x100010, [], 8, .ro, 0x0, 0x0, 0x0⟩,
  ⟨0x100018, [], 8, .ro, 0x0, 0x0, 0x0⟩,
  ⟨0x100020, [], 8, .ro, 0x0, 0x0, 0x0⟩,
  ⟨0x100028, [], 8, .rw, 0xffffffffffff, 0x0, 0x0⟩,
  ⟨0x100030, [], 4, .rw, 0x3fffffff, 0x0, 0x0⟩,
  ⟨0x100034, [], 4, .wo, 0x0, 0x0, 0x0⟩,
  ⟨0x100038, [], 4, .ro, 0x0, 0x0, 0x0⟩,
  ⟨0x10003c, [], 4, .rw, 0xff, 0x0, 0xc⟩,
  ⟨0x100040, [], 4, .rw, 0x1fffff, 0x0, 0x30d40⟩,
  ⟨0x100044, [], 4, .rw, 0x7fff, 0x0, 0x1770⟩,
  ⟨0x100048, [], 4, .rw, 0xfff, 0x0, 0x5dc⟩,
  ⟨0x10004c, [], 4, .rw, 0x7f, 0x0, 0x20⟩,
  ⟨0x100050, [], 8, .rw, 0xffffffffffff, 0x0, 0x0⟩,
  ⟨0x100058, [], 4, .rw, 0x3fffffff, 0x0, 0x0⟩,
  ⟨0x10005c, [], 4, .ro, 0x0, 0x0, 0x529c1⟩,
  ⟨0x100060, [], 8, .ro, 0x0, 0x0, 0x0⟩,
  ⟨0x100068, [], 4, .rw, 0xfff, 0x0, 0x3c⟩,
  ⟨0x10006c, [], 4, .rw, 0xffff0003, 0x0, 0x10001⟩,
  ⟨0x100070, [], 8, .ro, 0x0, 0x0, 0x0⟩,
  ⟨0x100078, [], 8, .ro, 0x0, 0x0, 0x0⟩,
  ⟨0x100080, [], 4, .rw, 0x3, 0x0, 0x1⟩,
  ⟨0x100084, [], 4, .rc, 0x0, 0x0, 0x0⟩,
  ⟨0x100088, [], 4, .rc, 0x0, 0x0, 0x0⟩,
  ⟨0x10008c, [], 4, .rc, 0x0, 0x0, 0x0⟩]

/-- The HST block. -/
def rowsHST : List RegRow := [
  ⟨0x200000, [], 4, .ro, 0x0, 0x0, 0x0⟩,
  ⟨0x200008, [], 8, .rw, 0xfffffffffffff000, 0x0, 0x0⟩,
  ⟨0x200010, [], 8, .rw, 0xfffffffffffff000, 0x0, 0x0⟩,
  ⟨0x200018, [], 4, .rw, 0x87ff1f1f, 0x0, 0x404⟩,
  ⟨0x20001c, [], 4, .rw, 0x7ff, 0x0, 0x0⟩,
  ⟨0x200020, [], 8, .rw, 0xffffffffff, 0x0, 0x0⟩,
  ⟨0x200028, [], 4, .wo, 0x0, 0x0, 0x0⟩,
  ⟨0x200030, [], 8, .ro, 0x0, 0x0, 0x0⟩,
  ⟨0x200038, [], 4, .rc, 0x0, 0x0, 0x0⟩,
  ⟨0x20003c, [], 4, .rc, 0x0, 0x0, 0x0⟩,
  ⟨0x200040, [], 4, .rc, 0x0, 0x0, 0x0⟩,
  ⟨0x280000, [(0x8, 65536)], 8, .ro, 0x0, 0x0, 0x0⟩]

/-- The HAL block, first part. -/
def rowsHAL : List RegRow := [
  ⟨0x1000400, [(0x100000, 16), (0x4, 250)], 4, .ro, 0x0, 0x0, 0x0⟩,
  ⟨0x1000800, [(0x100000, 16), (0x4, 270)], 4, .ro, 0x0, 0x0, 0x0⟩,
  ⟨0x1001000, [(0x100000, 16)], 4, .ro, 0x0, 0x0, 0x0⟩,
  ⟨0x1001004, [(0x100000, 16)], 4, .ro, 0x0, 0x0, 0x0⟩,
  ⟨0x1001100, [(0x100000, 16)], 4, .rw, 0x1f, 0x0, 0x3⟩,
  ⟨0x1001104, [(0x100000, 16)], 4, .rc, 0x0, 0x0, 0x0⟩,
  ⟨0x1001108, [(0x100000, 16)], 4, .rc, 0x0, 0x0, 0x0⟩,
  ⟨0x100110c, [(0x100000, 16)], 4, .ro, 0x0, 0x0, 0x0⟩,
  ⟨0x1001110, [(0x100000, 16)], 8, .ro, 0x0, 0x0, 0x0⟩,
  ⟨0x1001118, [(0x100000, 16)], 4, .ro, 0x0, 0x0, 0x0⟩,
  ⟨0x1002000, [(0x100000, 16), (0x8, 250)], 8, .ro, 0x0, 0x0, 0x0⟩,
  ⟨0x1002800, [(0x100000, 16)], 8, .ro, 0x0, 0x0, 0x0⟩,
  ⟨0x1002808, [(0x100000, 16)], 8, .ro, 0x0, 0x0, 0x0⟩,
  ⟨0x1002900, [(0x100000, 16)], 4, .rc, 0x0, 0x0, 0x0⟩,
  ⟨0x1002904, [(0x100000, 16)], 4, .ro, 0x0, 0x0, 0x0⟩,
  ⟨0x1002908, [(0x100000, 16)], 8, .ro, 0x0, 0x0, 0x0⟩,
  ⟨0x1002910, [(0x100000, 16)], 4, .rw, 0x3, 0x0, 0x0⟩,
  ⟨0x1002914, [(0x100000, 16)], 4, .rc, 0x0, 0x0, 0x0⟩,
  ⟨0x1002a00, [(0x100000, 16)], 8, .ro, 0x0, 0x0, 0x0⟩,
  ⟨0x1002a08, [(0x100000, 16)], 8, .ro, 0x0, 0x0, 0x0⟩,
  ⟨0x1002a10, [(0x100000, 16)], 4, .rc, 0x0, 0x0, 0x0⟩,
  ⟨0x1002b00, [(0x100000, 16)], 8, .ro, 0x0, 0x0, 0x0⟩,
  ⟨0x1002b08, [(0x100000, 16)], 8, .ro, 0x0, 0x0, 0x0⟩,
  ⟨0x1002b10, [(0x100000, 16)], 4, .rc, 0x0, 0x0, 0x0⟩,
  ⟨0x1002b14, [(0x100000, 16)], 4, .ro, 0x0, 0x0, 0x0⟩,
  ⟨0x1002b18, [(0x100000, 16)], 4, .rc, 0x0, 0x0, 0x0⟩,
  ⟨0x1002b20, [(0x100000, 16)], 8, .rc, 0x0, 0x0, 0x0⟩,
  ⟨0x1002c00, [(0x100000, 16)], 8, .ro, 0x0, 0x0, 0x0⟩,
  ⟨0x1002c08, [(0x100000, 16)], 8, .ro, 0x0, 0x0, 0x0⟩,
  ⟨0x1002c10, [(0x100000, 16)], 8, .ro, 0x0, 0x0, 0x0⟩]

/-- The HAL block, second part. -/
def rowsHAL2 : List RegRow := [
  ⟨0x1002c18, [(0x100000, 16)], 8, .rc, 0x0, 0x0, 0x0⟩,
  ⟨0x1002c20, [(0x100000, 16)], 8, .rc, 0x0, 0x0, 0x0⟩,
  ⟨0x1002c28, [(0x100000, 16)], 8, .rc, 0x0, 0x0, 0x0⟩,
  ⟨0x1002c30, [(0x100000, 16)], 8, .rc, 0x0, 0x0, 0x0⟩,
  ⟨0x1002c38, [(0x100000, 16)], 4, .rc, 0x0, 0x0, 0x0⟩,
  ⟨0x1002c3c, [(0x100000, 16)], 4, .rc, 0x0, 0x0, 0x0⟩,
  ⟨0x1002d00, [(0x100000, 16)], 8, .ro, 0x0, 0x0, 0x0⟩,
  ⟨0x1002d08, [(0x100000, 16)], 8, .ro, 0x0, 0x0, 0x0⟩,
  ⟨0x1002d10, [(0x100000, 16)], 4, .rc, 0x0, 0x0, 0x0⟩,
  ⟨0x1002d14, [(0x100000, 16)], 4, .ro, 0x0, 0x0, 0x0⟩,
  ⟨0x1002d18, [(0x100000, 16)], 4, .rc, 0x0, 0x0, 0x0⟩,
  ⟨0x1002d1c, [(0x100000, 16)], 4, .rc, 0x0, 0x0, 0x0⟩,
  ⟨0x1002d20, [(0x100000, 16)], 4, .rc, 0x0, 0x0, 0x0⟩,
  ⟨0x1002d24, [(0x100000, 16)], 4, .rc, 0x0, 0x0, 0x0⟩,
  ⟨0x1002d28, [(0x100000, 16)], 4, .rw, 0x1f, 0x0, 0x14⟩,
  ⟨0x1003000, [(0x100000, 16)], 8, .ro, 0x0, 0x0, 0x0⟩,
  ⟨0x1003008, [(0x100000, 16)], 8, .ro, 0x0, 0x0, 0x0⟩,
  ⟨0x1003010, [(0x100000, 16)], 8, .ro, 0x0, 0x0, 0x0⟩,
  ⟨0x1003018, [(0x100000, 16)], 8, .ro, 0x0, 0x0, 0x0⟩,
  ⟨0x1003020, [(0x100000, 16)], 4, .rw1c, 0x0, 0x1f, 0x0⟩,
  ⟨0x1003024, [(0x100000, 16)], 4, .wo, 0x0, 0x0, 0x0⟩,
  ⟨0x1003100, [(0x100000, 16)], 4, .rc, 0x0, 0x0, 0x0⟩,
  ⟨0x1003104, [(0x100000, 16)], 4, .ro, 0x0, 0x0, 0x0⟩]

/-- The MEM block. -/
def rowsMEM : List RegRow := [
  ⟨0x2000000, [], 4, .ro, 0x0, 0x0, 0x0⟩,
  ⟨0x2000004, [], 4, .rw, 0x1ff, 0x0, 0x118⟩,
  ⟨0x2000008, [], 4, .ro, 0x0, 0x0, 0x0⟩,
  ⟨0x2000010, [], 8, .wo, 0x0, 0x0, 0x0⟩,
  ⟨0x2000018, [], 8, .ro, 0x0, 0x0, 0x0⟩,
  ⟨0x2000020, [], 4, .rc, 0x0, 0x0, 0x0⟩,
  ⟨0x2000024, [], 4, .rc, 0x0, 0x0, 0x0⟩,
  ⟨0x2000028, [], 8, .ro, 0x0, 0x0, 0x0⟩,
  ⟨0x2010000, [(0x100, 256)], 4, .rw, 0x1, 0x0, 0x0⟩,
  ⟨0x2010004, [(0x100, 256)], 4, .ro, 0x0, 0x0, 0x0⟩,
  ⟨0x2010008, [(0x100, 256)], 4, .rc, 0x0, 0x0, 0x0⟩,
  ⟨0x201000c, [(0x100, 256)], 4, .rc, 0x0, 0x0, 0x0⟩,
  ⟨0x2010010, [(0x100, 256)], 8, .ro, 0x0, 0x0, 0x0⟩,
  ⟨0x2010020, [(0x100, 256)], 4, .rw, 0x3fff, 0x0, 0x0⟩,
  ⟨0x2010024, [(0x100, 256)], 4, .ro, 0x0, 0x0, 0x0⟩,
  ⟨0x2010028, [(0x100, 256)], 8, .rw, 0xffffffffffffffff, 0x0, 0x0⟩,
  ⟨0x2010030, [(0x100, 256)], 4, .rw, 0xffffffff, 0x0, 0x0⟩,
  ⟨0x2010034, [(0x100, 256)], 4, .rw, 0xffffffff, 0x0, 0x0⟩,
  ⟨0x2010038, [(0x100, 256)], 4, .rw, 0xffffffff, 0x0, 0x1⟩,
  ⟨0x2010040, [(0x100, 256)], 8, .rw, 0xffffffffffffffff, 0x0, 0x0⟩,
  ⟨0x2010048, [(0x100, 256)], 8, .ro, 0x0, 0x0, 0x0⟩,
  ⟨0x2010050, [(0x100, 256)], 8, .ro, 0x0, 0x0, 0x0⟩,
  ⟨0x2010058, [(0x100, 256)], 4, .ro, 0x0, 0x0, 0x0⟩,
  ⟨0x201005c, [(0x100, 256)], 4, .ro, 0x0, 0x0, 0x0⟩,
  ⟨0x2010060, [(0x100, 256)], 8, .ro, 0x0, 0x0, 0x0⟩,
  ⟨0x2010068, [(0x100, 256)], 8, .ro, 0x0, 0x0, 0x0⟩,
  ⟨0x2010070, [(0x100, 256)], 8, .rw, 0xffffffffffffffff, 0x0, 0x0⟩]

/-- The GAR block. -/
def rowsGAR : List RegRow := [
  ⟨0x2800000, [], 4, .rw, 0xffff, 0x0, 0xffff⟩,
  ⟨0x2800004, [], 4, .rw, 0xff07, 0x0, 0x4⟩,
  ⟨0x2800008, [], 4, .ro, 0x0, 0x0, 0x0⟩,
  ⟨0x280000c, [], 4, .rc, 0x0, 0x0, 0x0⟩,
  ⟨0x2800010, [], 4, .rw, 0xc0ffffff, 0x0, 0x0⟩,
  ⟨0x2800018, [], 8, .rc, 0x0, 0x0, 0x0⟩,
  ⟨0x2800020, [], 8, .rc, 0x0, 0x0, 0x0⟩,
  ⟨0x2800100, [(0x100, 16)], 4, .rw, 0x8000ff0f, 0x0, 0x1003⟩,
  ⟨0x2800104, [(0x100, 16)], 4, .ro, 0x0, 0x0, 0x0⟩,
  ⟨0x2800108, [(0x100, 16)], 4, .ro, 0x0, 0x0, 0x0⟩,
  ⟨0x2800110, [(0x100, 16)], 4, .rc, 0x0, 0x0, 0x0⟩,
  ⟨0x2800114, [(0x100, 16)], 4, .rc, 0x0, 0x0, 0x0⟩,
  ⟨0x2800118, [(0x100, 16)], 8, .rc, 0x0, 0x0, 0x0⟩,
  ⟨0x2800120, [(0x100, 16)], 4, .rw, 0xc000ffff, 0x0, 0x0⟩,
  ⟨0x2800124, [(0x100, 16)], 4, .ro, 0x0, 0x0, 0x0⟩,
  ⟨0x2800140, [(0x100, 16), (0x8, 4)], 8, .ro, 0x0, 0x0, 0x0⟩,
  ⟨0x2800160, [(0x100, 16)], 4, .wo, 0x0, 0x0, 0x0⟩,
  ⟨0x2810000, [(0x4, 65536)], 4, .rw, 0xc00000ff, 0x0, 0x0⟩]

/-- The FLT block. -/
def rowsFLT : List RegRow := [
  ⟨0x3000000, [], 4, .rw, 0x70707, 0x0, 0x20302⟩,
  ⟨0x3000004, [], 4, .ro, 0x0, 0x0, 0x40000000⟩,
  ⟨0x3000010, [], 8, .ro, 0x0, 0x0, 0x0⟩,
  ⟨0x3000018, [], 8, .ro, 0x0, 0x0, 0x0⟩,
  ⟨0x3000020, [], 8, .ro, 0x0, 0x0, 0x0⟩,
  ⟨0x3000028, [], 8, .ro, 0x0, 0x0, 0x0⟩,
  ⟨0x3000030, [], 4, .rw1c, 0x0, 0x1f, 0x0⟩,
  ⟨0x3000034, [], 4, .wo, 0x0, 0x0, 0x0⟩,
  ⟨0x3001000, [(0x80, 96)], 4, .rw, 0xffffffff, 0x0, 0x4003e8⟩,
  ⟨0x3001004, [(0x80, 96)], 4, .ro, 0x0, 0x0, 0x0⟩,
  ⟨0x3001040, [(0x80, 96), (0x4, 16)], 4, .rc, 0x0, 0x0, 0x0⟩]

/-- The RST block. -/
def rowsRST : List RegRow := [
  ⟨0x3100000, [], 4, .rw, 0xf, 0x0, 0x2⟩,
  ⟨0x3100004, [], 4, .ro, 0x0, 0x0, 0x0⟩,
  ⟨0x3100008, [], 4, .wo, 0x0, 0x0, 0x0⟩,
  ⟨0x310000c, [], 4, .rw, 0xffff, 0x0, 0x400⟩,
  ⟨0x3100010, [], 8, .ro, 0x0, 0x0, 0x0⟩,
  ⟨0x3100018, [], 8, .ro, 0x0, 0x0, 0x0⟩,
  ⟨0x3100020, [], 8, .rw, 0xffffffffffffffc0, 0x0, 0x0⟩,
  ⟨0x3100028, [], 4, .rw, 0xffffffff, 0x0, 0x0⟩,
  ⟨0x310002c, [], 4, .wo, 0x0, 0x0, 0x0⟩,
  ⟨0x3100030, [], 4, .ro, 0x0, 0x0, 0x0⟩,
  ⟨0x3100034, [], 4, .ro, 0x0, 0x0, 0x0⟩,
  ⟨0x3100038, [], 4, .ro, 0x0, 0x0, 0x0⟩,
  ⟨0x310003c, [], 4, .ro, 0x0, 0x0, 0x0⟩,
  ⟨0x3100040, [], 4, .rc, 0x0, 0x0, 0x0⟩,
  ⟨0x3100044, [], 4, .rc, 0x0, 0x0, 0x0⟩,
  ⟨0x3100048, [], 4, .rc, 0x0, 0x0, 0x0⟩,
  ⟨0x310004c, [], 4, .rc, 0x0, 0x0, 0x0⟩,
  ⟨0x3100050, [], 4, .rc, 0x0, 0x0, 0x0⟩,
  ⟨0x3100054, [], 4, .rc, 0x0, 0x0, 0x0⟩,
  ⟨0x3100058, [], 4, .rc, 0x0, 0x0, 0x0⟩,
  ⟨0x310005c, [], 4, .rc, 0x0, 0x0, 0x0⟩,
  ⟨0x3100100, [(0x8, 16)], 8, .ro, 0x0, 0x0, 0x0⟩]

/-- The PWR block. -/
def rowsPWR : List RegRow := [
  ⟨0x3200000, [], 4, .ro, 0x0, 0x0, 0x4000⟩,
  ⟨0x3200004, [], 4, .rw, 0x7, 0x0, 0x0⟩,
  ⟨0x3200008, [], 4, .ro, 0x0, 0x0, 0x0⟩,
  ⟨0x320000c, [], 4, .rc, 0x0, 0x0, 0x0⟩,
  ⟨0x3200010, [], 8, .ro, 0x0, 0x0, 0x0⟩,
  ⟨0x3200018, [], 4, .rc, 0x0, 0x0, 0x0⟩,
  ⟨0x3200100, [(0x4, 30)], 4, .ro, 0x0, 0x0, 0x0⟩,
  ⟨0x3200200, [(0x8, 34)], 8, .ro, 0x0, 0x0, 0x0⟩,
  ⟨0x3200400, [], 4, .rw, 0xc0ffffff, 0x0, 0x80190aa8⟩,
  ⟨0x3200404, [], 4, .wo, 0x0, 0x0, 0x0⟩,
  ⟨0x3200408, [], 4, .ro, 0x0, 0x0, 0x0⟩,
  ⟨0x3200410, [], 8, .ro, 0x0, 0x0, 0x0⟩,
  ⟨0x3200500, [(0x4, 16)], 4, .ro, 0x0, 0x0, 0x0⟩,
  ⟨0x3200600, [(0x4, 160)], 4, .ro, 0x0, 0x0, 0x0⟩]

/-- The SEC block. -/
def rowsSEC : List RegRow := [
  ⟨0x3300000, [], 4, .ro, 0x0, 0x0, 0x0⟩,
  ⟨0x3300004, [], 4, .wo, 0x0, 0x0, 0x0⟩,
  ⟨0x3300008, [], 4, .ro, 0x0, 0x0, 0x0⟩,
  ⟨0x330000c, [], 4, .rw, 0xffffffff, 0x0, 0x0⟩,
  ⟨0x3300010, [], 4, .rw, 0xffffffff, 0x0, 0x0⟩,
  ⟨0x3300018, [], 8, .ro, 0x0, 0x0, 0x0⟩,
  ⟨0x3300020, [], 4, .ro, 0x0, 0x0, 0x0⟩,
  ⟨0x3301000, [(0x8, 512)], 8, .rw, 0xffffffffffffffff, 0x0, 0x0⟩]

/-- The CTX block. -/
def rowsCTX : List RegRow := [
  ⟨0x340e000, [(0x100, 16)], 4, .rw, 0x8fff033f, 0x0, 0x100⟩,
  ⟨0x340e004, [(0x100, 16)], 4, .rw, 0xffffffff, 0x0, 0x200007d0⟩,
  ⟨0x340e008, [(0x100, 16)], 4, .rw, 0xff00ffff, 0x0, 0x10000000⟩,
  ⟨0x340e010, [(0x100, 16)], 8, .wo, 0x0, 0x0, 0x0⟩,
  ⟨0x340e018, [(0x100, 16)], 4, .ro, 0x0, 0x0, 0x0⟩,
  ⟨0x340e01c, [(0x100, 16)], 4, .ro, 0x0, 0x0, 0x0⟩,
  ⟨0x340e020, [(0x100, 16)], 8, .rw, 0xffffffffff, 0x0, 0x0⟩,
  ⟨0x340e028, [(0x100, 16)], 4, .rc, 0x0, 0x0, 0x0⟩,
  ⟨0x340e02c, [(0x100, 16)], 4, .rc, 0x0, 0x0, 0x0⟩,
  ⟨0x340e040, [(0x100, 16), (0x4, 16)], 4, .rw, 0xffffffff, 0x0, 0x0⟩,
  ⟨0x340f000, [], 4, .rw, 0xfff, 0x0, 0x0⟩,
  ⟨0x340f004, [], 4, .ro, 0x0, 0x0, 0x0⟩,
  ⟨0x340f008, [], 8, .ro, 0x0, 0x0, 0x0⟩,
  ⟨0x340f010, [], 8, .ro, 0x0, 0x0, 0x0⟩,
  ⟨0x340f018, [], 8, .ro, 0x0, 0x0, 0x0⟩,
  ⟨0x340f020, [], 4, .rc, 0x0, 0x0, 0x0⟩,
  ⟨0x340f024, [], 4, .rc, 0x0, 0x0, 0x0⟩,
  ⟨0x340f028, [], 4, .rc, 0x0, 0x0, 0x0⟩,
  ⟨0x340f02c, [], 4, .rc, 0x0, 0x0, 0x0⟩,
  ⟨0x3400000, [], 4, .rw, 0xfff, 0x0, 0x0⟩,
  ⟨0x3400004, [], 4, .ro, 0x0, 0x0, 0x0⟩,
  ⟨0x3400008, [], 4, .ro, 0x0, 0x0, 0x0⟩,
  ⟨0x340000c, [], 4, .ro, 0x0, 0x0, 0x0⟩,
  ⟨0x3400010, [], 8, .ro, 0x0, 0x0, 0x0⟩,
  ⟨0x3400018, [], 8, .ro, 0x0, 0x0, 0x0⟩,
  ⟨0x3400020, [], 4, .rc, 0x0, 0x0, 0x0⟩,
  ⟨0x3400024, [], 4, .ro, 0x0, 0x0, 0x0⟩,
  ⟨0x3400100, [], 4, .ro, 0x0, 0x0, 0x0⟩,
  ⟨0x3400104, [], 4, .rw, 0xfff, 0x0, 0x3c⟩,
  ⟨0x3400108, [], 4, .rw, 0x1ff, 0x0, 0x104⟩,
  ⟨0x340010c, [], 4, .ro, 0x0, 0x0, 0x0⟩,
  ⟨0x3400110, [], 4, .rc, 0x0, 0x0, 0x0⟩,
  ⟨0x3400114, [], 4, .rc, 0x0, 0x0, 0x0⟩,
  ⟨0x3400200, [], 4, .rw, 0xfff000f, 0x0, 0x0⟩,
  ⟨0x3400204, [], 4, .ro, 0x0, 0x0, 0x0⟩,
  ⟨0x3400208, [], 4, .ro, 0x0, 0x0, 0x0⟩,
  ⟨0x3400210, [], 8, .ro, 0x0, 0x0, 0x0⟩,
  ⟨0x3400218, [], 8, .ro, 0x0, 0x0, 0x0⟩,
  ⟨0x3400220, [], 8, .ro, 0x0, 0x0, 0x0⟩,
  ⟨0x3400228, [], 4, .ro, 0x0, 0x0, 0x0⟩]

/-- The block that an offset of BAR0 falls into (Table 0.3). -/
def blockRows (a : Nat) : List RegRow :=
  if a < 0x100000 then rowsDEV
  else if a < 0x200000 then rowsFTK
  else if a < 0x300000 then rowsHST
  else if a < 0x1000000 then []
  else if a < 0x2000000 then rowsHAL ++ rowsHAL2
  else if a < 0x2800000 then rowsMEM
  else if a < 0x3000000 then rowsGAR
  else if a < 0x3100000 then rowsFLT
  else if a < 0x3200000 then rowsRST
  else if a < 0x3300000 then rowsPWR
  else if a < 0x3400000 then rowsSEC
  else if a < 0x3500000 then rowsCTX
  else []

/-- Whether the distance `d` from a row's first register is the start of one of its registers. -/
def dimsHit : List (Nat × Nat) → Nat → Bool
  | [], d => d == 0
  | (st, n) :: r, d => d / st < n && dimsHit r (d % st)

/-- Whether the register of the row that holds the offset `a` starts there. -/
def RegRow.hits (r : RegRow) (a : Nat) : Bool := r.off ≤ a && dimsHit r.dims (a - r.off)

/-- The row whose register starts at the offset `a` (a multiple of the register's width, R12). -/
def regRow (a : Nat) : Option RegRow := (blockRows a).find? (·.hits a)


end Sys2Proof.Machine
end

