-- ==== Sys2Proof/Machine/State.lean ====
section
/-! DEFINITION. The state of the block as plain data: every register, buffer, counter, mode and pin that the manual
gives the device, and the queue of waiting commands. -/
namespace Sys2Proof.Machine

/-- Why the machine stops. No command of this block stops it: every command of the table has an effect in every state
(an event that cannot arise in a state leaves it unchanged), so nothing raises this fault. Safe: it is never answered. -/
inductive Fault where
  /-- Raised by nothing. Safe. -/
  | none
deriving DecidableEq, Repr

/-- Why a command is refused by the model. -/
inductive Refusal where
  /-- Raised by the arm of a command that has no meaning yet, with the command's mnemonic. Safe: nothing is claimed. -/
  | notModelled (mnemonic : String)
deriving DecidableEq, Repr

/-! ### What the device sends to the outside -/

/-- What leaves the device at a command: register read data, host writes and messages, packets, SMBus bytes. The
manual's outputs are not state of the device; the model records them in order (log entry 8). -/
inductive Out where
  /-- The data of a register read. -/
  | readData (fn : Nat) (off : Nat) (value : W64)
  /-- The data of a read through BAR4 (R470), with the EP bit of its completion (Table 9.6). -/
  | bar4Data (fn : Nat) (off : Nat) (bytes : List Byte) (poisoned : Bool)
  /-- One of the two posted writes of a completion record, to slot `slot` of the CQ of a ring (Table 14.6, R495). -/
  | completion (ring : Nat) (slot : Nat) (addr : Nat) (bytes : List Byte)
  /-- A posted write to host memory. -/
  | hostWrite (addr : Nat) (bytes : List Byte)
  /-- An MSI-X message of a function's vector, with the table entry's address and data (R501). -/
  | msix (fn : Nat) (vector : Nat) (entry : BitVec 128)
  /-- A part of the posted write before it whose packet carries the EP (poisoned) bit, for data that is uncorrectable (Table 9.6). -/
  | hostPoison (addr : Nat) (bytes : Nat)
  /-- A read request for host memory. -/
  | hostRead (addr : Nat) (bytes : Nat)
  /-- The slots of a packet whose last slot has been sent on a Garrid port, each with its tag (Table 15.2). -/
  | garrid (port : Nat) (slots : List (Nat × List Byte))
  /-- A control slot sent on a Garrid port. -/
  | control (port : Nat) (c : ControlSlot)
  /-- A PTP message sent on a Garrid port (R543). -/
  | ptp (port : Nat) (m : PtpMsg)
  /-- A pulse on 1PPS_OUT of the given length in ns (R656), or a change of its level. -/
  | ppsPulse (ns : Nat)
  | ppsLevel (high : Bool)
  /-- The bytes answered to an SMBus read. -/
  | smbus (bytes : List Byte)
deriving DecidableEq, Repr

/-! ### The cores (06, 07, 10) -/

/-- A tensor descriptor register: the 512 bits of the image that created it and the valid bit (R193, R268). -/
structure DReg where
  bits : BitVec 512 := 0
  valid : Bool := false
deriving DecidableEq, Repr

/-- What a control processor is blocked on (R203, R227, R230 to R233). A LANDWAIT holds the frame that step 9 armed once
that step has completed. -/
inductive Block where
  | none
  | twait (tc : Nat) (value : Nat)
  | send (dest : Nat) (payload : W64) (raised : Bool)
  | recv (s : Nat) (a : Nat) (queue : Nat)
  | landwait (s : Nat) (armed : Option Nat)
  | fence (mask : Nat)
deriving DecidableEq, Repr

/-- One entry of a send buffer, held until its ACK arrives (R350), with the pc of its SEND (Table 10.10). -/
structure SendEntry where
  dest : Nat
  payload : W64
  pc : Nat
deriving DecidableEq, Repr

/-- A grant record of a receive queue: the core granted as a destination word without QUEUE, what remains, and the
time of the grant in core cycles (R345). -/
structure GrantRec where
  peer : Nat
  left : Nat
  at_ : Nat
deriving DecidableEq, Repr

/-- A receive queue: its entries, oldest first (payload and sender's destination word), RES and the grant records. -/
structure RxQueue where
  entries : List (W64 × Nat) := []
  res : Nat := 0
  grants : List GrantRec := []
deriving DecidableEq, Repr

/-- An entry of the credit cache, the most recently used first in the list (R347). -/
structure CacheEntry where
  dest : Nat
  credits : Nat
deriving DecidableEq, Repr

/-- The architectural state of a control processor (Table 6.1, Table 6.12). `s`, `a` and `d` list the registers that
do not hold 0; `stopped` holds from a reset until a kernel starts, and while the context is off the hall (R196, R203). -/
structure Cp where
  s : SMap W32 := []
  a : SMap W64 := []
  p : BitVec 8 := 0
  d : SMap DReg := []
  pc : BitVec 12 := 0
  prog : SMap W32 := []
  stopped : Bool := true
  block : Block := .none
  srSeed : W64 := 0
  tvec : BitVec 13 := 0
  tepc : BitVec 12 := 0
  tcause : Byte := 0
  tval : W64 := 0
  inHandler : Bool := false
  halted : Bool := false
  haltedByHalt : Bool := false
  instret : W64 := 0
  sendBuf : List SendEntry := []
  cache : List CacheEntry := []
  creditReq : Option Nat := none
  retryDue : Bool := false
  rx : SMap RxQueue := []
deriving DecidableEq, Repr

/-- The state of a table slot (Table 6.9). -/
inductive SlotState where
  | empty | loading | ready | failed
deriving DecidableEq, Repr

/-- A TPATCH in progress (R228). -/
structure Patch where
  step : Nat
  value : W64
  field : Nat
  pc : Nat
deriving DecidableEq, Repr

/-- A slot of the table store: its state, its steps, the image descriptor of a load in progress with the descriptor
registers as they stood at its TLOAD (R688), and the patches in progress (R235 to R238, R228). -/
structure Slot where
  state : SlotState := .empty
  steps : List (BitVec 128) := []
  src : BitVec 512 := 0
  regs : SMap DReg := []
  patches : List Patch := []
deriving DecidableEq, Repr

/-- An open loop: the index of the first step of its body, COUNT and the pass number (R250). -/
structure LoopFrame where
  body : Nat
  count : Nat
  pass : Nat
deriving DecidableEq, Repr

/-- A queue of a sequencer (R225, R226, R247, R257 to R261). `bind` is the binding in force, as slot and offset, and
`pendBind` what TSWITCH instructions asked for, oldest first, with the acceptance serials they wait on; `armed` holds from step 9 until the table of
the frame starts, and `due` that its start time has passed while the core still ran an earlier table (R75). -/
structure SeqQueue where
  bind : Option (Nat × Nat) := none
  pendBind : List (Nat × Option (Nat × Nat)) := []
  sel : Option Nat := none
  run : Option Nat := none
  pos : Nat := 0
  loops : List LoopFrame := []
  armed : Bool := false
  due : Bool := false
  endDispatched : Bool := false
  stopped : Bool := false
deriving DecidableEq, Repr

/-- A step that waits in the queue of its unit (R247), with the loop indices it was dispatched under (R250). -/
structure Entry where
  queue : Queue
  slot : Nat
  idx : Nat
  step : BitVec 128
  l0 : Nat
  l1 : Nat
  l2 : Nat
deriving DecidableEq, Repr

/-- A step that has issued: what it sampled (R248), its iteration in progress, and what that iteration will write
when it completes: `wide` are the writes to a wide buffer. `cut` marks an idle-fill step whose remaining iterations are
discarded (R261); `rows` are the rows that a SCATTER iteration writes. Of an ARRAY iteration: `first` is the schedule cycle, from the
start of the ramp-up, in which its first chunk streams; `drains` are its writes row by row in the order of the drains, `merges`
its wide entries block-pass by block-pass, `accs` the accumulator entries that it leaves, and `was` the bytes that the wide buffer
held when it issued (R132, R133, R167, R172). -/
structure Run where
  entry : Entry
  d0 : BitVec 512 := 0
  d1 : BitVec 512 := 0
  d2 : BitVec 512 := 0
  d3 : BitVec 512 := 0
  d4 : BitVec 512 := 0
  seed : W64 := 0
  frame : Nat := 0
  epoch : Nat := 0
  iter : Nat := 0
  busy : Bool := false
  cut : Bool := false
  writes : List (Nat × Byte) := []
  wide : List (Nat × Byte) := []
  overflow : Bool := false
  nan : Bool := false
  inf : Bool := false
  tile : Nat := 0
  rows : Nat := 0
  retry : Bool := false
  first : Nat := 0
  drains : List (List (Nat × Byte)) := []
  merges : List (List (Nat × Byte)) := []
  accs : List (Nat × Nat) := []
  was : List (Nat × Byte) := []
deriving DecidableEq, Repr

/-- A unit: the steps waiting in its queue, the main-queue step and the idle-fill step that it has started and not
completed, of which one iteration at most is in progress (R247, R248, R260), and for the array unit the iteration that
overlaps the one in progress (R135, R136). -/
structure UnitState where
  waiting : List Entry := []
  cur : Option Run := none
  idleCur : Option Run := none
  overlap : Option Run := none
deriving DecidableEq, Repr

/-- A SIGNAL sent and not yet acknowledged (R252, R255). -/
structure SignalOut where
  tile : Nat
  entry : Entry
  epoch : Nat
  retry : Bool := false
deriving DecidableEq, Repr

/-- The array ramp (R138 to R141): idle; active since a ramp-up, with the RAMP_CYCLES and the DUTY that the ramp-up sampled; or
ramping down, with the level that is left. -/
inductive Ramp where
  | idle
  | active (top duty : Nat)
  | down (level : Nat)
deriving DecidableEq, Repr

/-- The accumulator memory of a core: 4 arrays of 256 rows of 16 entries of 48 bits (R152, Table 5.1). Entry `j` of row `r` of array
`a` is number 4096 a + 16 r + j; one that is not listed holds 0, or, after a stop, the free value numbered from `undef` on (R143). -/
structure AccMem where
  entries : SMap (Option Nat) := []
  undef : Option Nat := none
deriving DecidableEq, Repr

/-- The sequencer and the data path of a core. `cycle` are the cycles since the ramp-up that STREAMED and OCCUPIED count so far (R148),
`acc` is the accumulator memory, and `wideHeld` lists the bytes of the wide buffers of open accumulations as the last merge left
them (R172; the model's own field, log entry 112). -/
structure Seq where
  slots : SMap Slot := []
  main : SeqQueue := {}
  idle : SeqQueue := {}
  tok : SMap W32 := []
  array : UnitState := {}
  vector : UnitState := {}
  mover : UnitState := {}
  mesh : UnitState := {}
  signals : List SignalOut := []
  ramp : Ramp := .idle
  cycle : Nat := 0
  acc : AccMem := {}
  wideHeld : List (Nat × Byte) := []
  streamed : Nat := 0
  occupied : Nat := 0
  ovf : Bool := false
  numTrapRaised : Bool := false
  draws : SMap Nat := []
  tblErr : Nat := 0
  reachedEnd : Bool := true
  progress : Bool := false
  started : Bool := false
  tileNext : Nat := 0
deriving DecidableEq, Repr

/-- One logical core. -/
structure Core where
  cp : Cp := {}
  seq : Seq := {}
deriving DecidableEq, Repr

/-- The part of a core that a context keeps while it is off a hall: the control state record (R204) when a kernel is
in progress, the live ranges of the alcove as bytes with the offsets of the words in them that were uncorrectable, and the table shadow (R263). -/
structure SavedCore where
  record : Option Cp := none
  alcove : List Host.Cell := []
  poison : List Nat := []
  slots : SMap Slot := []
  mainBind : Option (Nat × Nat) := none
  idleBind : Option (Nat × Nat) := none
deriving DecidableEq, Repr

/-! ### Memory (09) -/

/-- A run of pages whose ownership entries differ only in POISON: the first page, the count, and the 64-bit entry of
Table 9.4 without POISON. A page in no run has the entry 0. -/
structure PotRun where
  first : Nat
  count : Nat
  entry : BitVec 64
deriving DecidableEq, Repr

/-- A word or sector with an error in its stored bits: its memory key (the first byte's), and whether a single bit
(correctable) or more is wrong, whether an uncorrectable one has been found and poisoned (R323, R324), and the 64-bit words that were
struck, by the keys of their first bytes (R332). -/
structure EccError where
  key : Nat
  uncorrectable : Bool
  found : Bool := false
  struck : List Nat := []
deriving DecidableEq, Repr

/-- A traffic generator run: its settings (MEM_TG_CTRL, SEED, USER, START, END, STRIDE and OPS as they stood at its
start), when it began in core cycles, whether a STOP ends it, the operations performed so far and the addresses taken, and the
checker's findings: mismatching bursts, and the first with its expected and its actual word (R329 to R332). -/
structure TgRun where
  ctrl : Nat
  seed : Nat
  user : Nat
  first : Nat
  last : Nat
  stride : Nat
  ops : Nat
  began : Nat
  stopping : Bool := false
  done : Nat := 0
  next : Nat := 0
  errs : Nat := 0
  mism : Option (Nat × Nat × Nat) := none
deriving DecidableEq, Repr

/-- The memories. One key space holds every byte: HBM at its physical address, the mezzanine at 2^40, the alcove of
core n at 2^41 + n * 0x30000 (log entry 9). `ownCache` lists the pages of each hall's ownership cache set by set, the
most recently used first (R318); `far` is what each far regulator has spent and not regained, in bytes, and the core cycle
from which it gains credit (R313). -/
structure MemState where
  cells : List Host.Cell := []
  undef : List (Nat × Nat × Nat) := []
  pot : List PotRun := []
  ecc : List EccError := []
  ownCache : SMap (List Nat) := []
  far : SMap (Nat × Nat) := []
  potQuery : Option Nat := none
  tg : SMap (Option TgRun) := []
deriving DecidableEq, Repr

/-! ### Contexts, models and generation (11, 12, 13) -/

/-- The context states of Table 13.1. -/
inductive CtxState where
  | free | loading | ready | running | preempted | suspect | faulted | detached
deriving DecidableEq, Repr

/-- An allocation range (R307): its first page, its length, its KIND and its permissions. -/
structure Range where
  base : Nat
  pages : Nat
  kind : Nat
  rd : Bool
  wr : Bool
deriving DecidableEq, Repr

/-- An accepted command: its ring and the number under which the ring lists it. -/
structure CmdRef where
  ring : Nat
  id : Nat
deriving DecidableEq, Repr

/-- A kernel of a context: its submission, the image's address and length, the argument, what the image declares (R438,
R493), with the micro-batches and the backward flag of its replay record (Table 17.5), and the target frame. `again` marks
one that the device has submitted again (R577, R584). -/
structure Kernel where
  cmd : CmdRef
  image : Nat
  bytes : Nat
  arg : W32
  target : Nat
  serial : Nat
  replayable : Bool
  m : Nat := 0
  bwd : Bool := false
  live : List (Nat × Nat)
  again : Bool := false
deriving DecidableEq, Repr

/-- The sequence states of Table 12.3. -/
inductive SeqState where
  | retired | active | stalled | deferred
deriving DecidableEq, Repr

/-- A sequence slot of a pool, with the fields of Table 12.7, its in-use sets in block order and its reserve (R406). -/
structure Sequence where
  state : SeqState := .retired
  ver : Nat := 0
  model : Nat := 0
  isNew : Bool := false
  migrated : Bool := false
  code : Nat := 0
  pos : Nat := 0
  sets : List Nat := []
  reserve : Option Nat := none
  serial : Nat := 0
  tag : W64 := 0
  frame : Nat := 0
deriving DecidableEq, Repr

/-- A join of a batch descriptor (Table 12.5). -/
structure Join where
  slot : Nat
  initPos : Nat
  tag : W64
deriving DecidableEq, Repr

/-- An accepted batch descriptor that has not acted, or has acted in steps 4 and 5 and waits for step 7 (R411, R412). -/
structure Batch where
  cmd : CmdRef
  serial : Nat
  target : Nat
  holdOrder : Bool
  keepRows : Bool
  rows : List Nat
  departs : List Nat
  migrates : List Nat
  joins : List Join
  acting : Bool := false
  deferred : Bool := false
deriving DecidableEq, Repr

/-- A KV pool: its range, the parameters of Table 12.2, the device's record of slots, free sets and rows (R404), and
the counters of Table 12.10. -/
structure Pool where
  base : Nat
  rowsMax : Nat
  seqMax : Nat
  setPages : Nat
  blockPos : Nat
  setsMax : Nat
  poolSets : Nat
  seqs : SMap Sequence := []
  used : List Nat := []
  nextSerial : Nat := 1
  rows : List Nat := []
  rowFrame : Nat := 0
  tableRows : List (Nat × Bool) := []
  batch : Option Batch := none
  freeShown : Nat := 0
  lastCode : Nat := 0
  stalls : Nat := 0
  defers : Nat := 0
  skips : Nat := 0
  departsCount : Nat := 0
deriving DecidableEq, Repr

/-- The version states of Table 13.7. -/
inductive VerState where
  | retired | staging | verified | active | draining | quarantined
deriving DecidableEq, Repr

/-- A version slot of a model: its image's range and options, what its first shard fixed, the shards verified and
quarantined, its pins, its resident digest, where it was evicted to, and the acceptance serials at which a re-check of it
failed and at which it became VERIFIED (R442 to R459). -/
structure Version where
  state : VerState := .retired
  base : Nat := 0
  pages : Nat := 0
  pin : Bool := false
  mez : Option (Nat × Nat × Nat) := none
  modelId : Nat := 0
  version : Nat := 0
  shards : Nat := 0
  imageBytes : Nat := 0
  verified : List Nat := []
  quarantined : List Nat := []
  parts : List (Nat × Nat) := []
  timeouts : Nat := 0
  pins : Nat := 0
  digest : List Byte := []
  evicted : Option Nat := none
  recheckFailed : Option Nat := none
  verifiedAt : Nat := 0
deriving DecidableEq, Repr

/-- A shard load in progress (R451): the command, the slot or the DATA range, the options, the staging range, the
re-fetches made, and for a Garrid source the transfer and the bytes that have arrived (R538). -/
structure Load where
  cmd : CmdRef
  model : Nat
  slot : Nat
  toData : Option Nat
  pin : Bool
  mez : Option (Nat × Nat × Nat)
  garrid : Bool
  peer : Nat
  src : Nat
  bytes : Nat
  staging : Nat
  retries : Nat := 0
  began : Nat
  xfer : W64 := 0
  got : Nat := 0
deriving DecidableEq, Repr

/-- A request of an accepted command that acts at a landing (R66, R482). -/
inductive ReqKind where
  | destroy
  | rangeRemove (base : Nat)
  | hallSet (mask : Nat)
  | detach (garrid : Bool) (peer : Nat) (dest : Nat) (bytes : Nat)
  | exportTo (garrid : Bool) (peer : Nat) (dest : Nat) (bytes : Nat)
  | fence (epoch : Nat)
  | switch (model : Nat)
deriving DecidableEq, Repr

/-- A pending request: its ring and SEQ (none for a destroy that no command asked for), the serial of its acceptance and
its target frame. -/
structure Req where
  cmd : Option CmdRef
  serial : Nat
  target : Nat
  kind : ReqKind
deriving DecidableEq, Repr

/-- A package being written by a DETACH or an EXPORT that has acted (R461, R595). -/
structure PkgWrite where
  cmd : CmdRef
  isExport : Bool
  garrid : Bool
  peer : Nat
  dest : Nat
  destBytes : Nat
  frame : Nat
  bytes : Nat := 0
  xfer : Option W64 := none
  sent : Bool := false
deriving DecidableEq, Repr

/-- What step 6 reserves for a context on one hall (R429): the first pages of its save area and its table shadow. -/
structure Reserve where
  hall : Nat
  save : Nat
  shadow : Nat
deriving DecidableEq, Repr

/-- One context (13). `named` is a hall mask; `submitted` the kernel to start next and `queued` one that waits behind a kernel
submitted again; `saved` is what it keeps per core while it is off its halls;
`fault` is a SEVERE event that waits for step 6, with its serial, source and code (R554); `step7` says that step 7 is still to run,
for the frame `step7At` (R417). -/
structure Ctx where
  state : CtxState := .free
  fn : Nat := 0
  prio : Nat := 0
  keepMemory : Bool := false
  job : Nat := 0
  epoch : Nat := 0
  initShards : Nat := 0
  shardsVerified : Nat := 0
  named : Nat := 0
  ranges : List Range := []
  reserves : List Reserve := []
  kernel : Option Kernel := none
  submitted : Option Kernel := none
  queued : Option Kernel := none
  live : List (Nat × Nat) := []
  everRan : Bool := false
  saved : SMap SavedCore := []
  lastCode : Nat := 0
  changeFrame : Nat := 0
  runnableSince : Nat := 0
  lastRun : Nat := 0
  spillNs : Nat := 0
  restoreNs : Nat := 0
  preempts : Nat := 0
  fault : Option (Nat × Nat × Nat) := none
  reqs : List Req := []
  fenceWriting : List (CmdRef × Nat) := []
  attachedLive : SMap (List Byte) := []
  pool : Option Pool := none
  models : SMap Version := []
  loads : List Load := []
  pkg : Option PkgWrite := none
  step7 : Bool := false
  step7At : Nat := 0
deriving DecidableEq, Repr

/-- A message of a loss-scale exchange held for a round that has not begun, or received in it (R381, R382). -/
structure LsMsg where
  peer : Nat
  round : Nat
  flag : Bool
  late : Bool
  step : Nat
  exp : Nat
deriving DecidableEq, Repr

/-- A loss-scale group (11): what its registers do not hold. `stopping` is an EN = 0 that waits for the end of the exchange of
the landing in progress (R66), and `gone` that the group's context was destroyed during it. -/
structure LsGroup where
  stepOvf : Bool := false
  request : Option (Nat × Nat) := none
  round : Nat := 0
  acc : Bool := false
  msgs : List LsMsg := []
  inStep2 : Bool := false
  missed : Bool := false
  diverged : Bool := false
  stopping : Bool := false
  gone : Bool := false
deriving DecidableEq, Repr

/-! ### Time and frames (02) -/

/-- The discipline states of Table 2.1. -/
inductive Disc where
  | unset | acquiring | locked | holdover | freerun
deriving DecidableEq, Repr

/-- The device time counter. `time` counts in units of 2^-16 / (7 * 10^6) ns, so that a corrected core cycle is a whole
number of units; `mono` is the free-running clock in units of 2^-16 / 7 ns since power-up (log entry 2). `freq` is the frequency
correction in ppm that the counter keeps when its source is lost, and `remain` what is left of the offset that is being slewed,
device minus source, in units of the counter (R50, R52, R53, R684). -/
structure Clock where
  time : Nat := 0
  mono : Nat := 0
  loaded : Bool := false
  disc : Disc := .unset
  fromHoldover : Bool := false
  lockRun : Nat := 0
  freq : Int := 0
  remain : Int := 0
  excursion : Bool := false
  ppsLost : Bool := false
  ptpLost : Bool := false
deriving DecidableEq, Repr

/-- How far the landing of the device has come (R67, R68): between landings; steps 1 and 2 in progress; steps 3 to 5
done and steps 6 to 9 running on the halls. -/
inductive Landing where
  | closed | step2 | halls
deriving DecidableEq, Repr

/-- The frame machinery of the device. `snap` is the acceptance serial of the last snapshot (R66) and `frame` the frame of its
landing; `starting`
and `runAt` are a start that waits for its first tick, and the free-running time of its acceptance in ns (R60); `ppsHigh` is
the level of 1PPS_OUT outside a pulse. -/
structure FrameCtl where
  ticking : Bool := false
  starting : Bool := false
  runAt : Nat := 0
  stopPending : Bool := false
  landing : Landing := .closed
  ticked : Bool := false
  snap : Nat := 0
  frame : Nat := 0
  openedAt : Nat := 0
  overrunCounted : Bool := false
  ppsHigh : Bool := false
deriving DecidableEq, Repr

/-- The landing steps of one hall from step 6 on (R68). -/
inductive HallStage where
  | done | handover | admissions
deriving DecidableEq, Repr

/-! ### Resets and recovery (17) -/

/-- The kinds of step of the reset stair (Table 17.1). -/
inductive ResetKind where
  | compute | hall | die | device | power
deriving DecidableEq, Repr

/-- The cause of a recovery: the event's source (0x7F for an RST_REQ), its code, what it names, its frame and the first
frame of its cause (R575). -/
structure Cause where
  src : Nat
  code : Nat := 0
  hall : Nat := 0
  inst : Nat := 0
  x : Nat := 0
  y : Nat := 0
  frame : Nat := 0
  first : Nat := 0
deriving DecidableEq, Repr

/-- A crash dump in the log: its place, its header fields (Table 17.6), its unit records as kind, index and status
(0 OK, 1 UNREACHABLE, 2 SKIPPED), and the registers as they stood when it was written (R591, R592). -/
structure Dump where
  offset : Nat
  kind : Nat
  target : Nat
  serial : Nat
  frame : Nat
  time : Nat
  timeValid : Bool
  src : Nat
  code : Nat
  records : List (Nat × Nat × Nat)
  regs : SMap W64
deriving DecidableEq, Repr

/-- A reset step in progress: its kind, when it began, and its cause. -/
structure Step where
  kind : ResetKind
  began : Nat
  frame : Nat
  cause : Cause
deriving DecidableEq, Repr

/-- The replay of a suspect (R580): the unit that runs or waits to start, the frame of the replay's start, and the source and
the code of the event that failed it. -/
structure Replay where
  ctx : Nat
  unit : Nat := 0
  running : Bool := false
  startFrame : Nat := 0
  failed : Option (Nat × Nat) := none
deriving DecidableEq, Repr

/-- One hall. `slots` and `remap` list what differs from delivery (R30); `history` gives the contexts that held the
hall in the last frames, newest first; `due` is a recovery that waits for step 8, with the acceptance serial of its
event; `request` an RST_REQ that waits likewise; `incoming` and
`outgoing` the contexts that a landing gives the hall to and takes it from, `drainNs` the drain of a handover in progress, and `startKernel` that step 9
starts a kernel or a replay unit here; `dirty` that a context lost the hall and it has not been zeroed since (R440); `why` the source and the code of the last recovery's cause. -/
structure Hall where
  slots : SMap Nat := []
  remap : SMap Nat := []
  marks : List Nat := []
  dropTimes : List (Nat × Nat) := []
  holder : Option Nat := none
  armedFrame : Nat := 0
  stage : HallStage := .done
  lateStart : Bool := false
  late : Bool := false
  noProgressFirst : Nat := 0
  started : BitVec 10 := 0
  galleryStart : SMap Nat := []
  incoming : Option Nat := none
  outgoing : Option Nat := none
  drainNs : Nat := 0
  startKernel : Bool := false
  dirty : Bool := false
  history : List (Nat × Nat) := []
  due : Option (Cause × Nat) := none
  request : Option (ResetKind × Nat) := none
  step : Option Step := none
  suspects : List Nat := []
  resolved : List Nat := []
  replay : Option Replay := none
  recTimes : List Nat := []
  why : Nat × Nat := (0, 0)
  resetAt : Nat := 0
deriving DecidableEq, Repr

/-! ### Host interface (14) -/

/-- The states of a ring (R477). -/
inductive RingState where
  | disabled | enabled | error
deriving DecidableEq, Repr

/-- An accepted command of a ring that has not completed: its SEQ, the number it is listed under, its entry, the serial
of its acceptance (R482), whether it counts as accepted (R484), has started, and has acted (R488). -/
structure Cmd where
  seq : Nat
  id : Nat
  entry : BitVec 512
  serial : Nat := 0
  accepted : Bool := false
  started : Bool := false
  acted : Bool := false
deriving DecidableEq, Repr

/-- A completion that is held for a full CQ (R497), and the rings that become DISABLED once it has been posted: those bound to the
context that it destroyed (R490). -/
structure Held where
  seq : Nat
  opcode : Nat
  tag : W64
  code : Nat
  r0 : Nat
  r1 : Nat
  noIrq : Bool
  closes : List Nat := []
deriving DecidableEq, Repr

/-- A ring with its submission and completion queues (R476 to R497). -/
structure Ring where
  state : RingState := .disabled
  bound : Option Nat := none
  sq : Nat := 0
  cq : Nat := 0
  sqLog2 : Nat := 4
  cqLog2 : Nat := 4
  vector : Nat := 0
  seqNext : Nat := 0
  sqTail : Nat := 0
  fetched : Nat := 0
  posted : Nat := 0
  released : Nat := 0
  cmds : List Cmd := []
  held : List Held := []
deriving DecidableEq, Repr

/-- A ring's mailbox (Table 14.12): TAG, READS, the whole SEQ of the command it names, status and value. -/
structure Mailbox where
  tag : Nat := 0
  reads : Nat := 0
  seq : Nat := 0
  status : Nat := 0
  value : Nat := 0
deriving DecidableEq, Repr

/-- What VF_CONFIG names for a virtual function (R504). -/
structure VfConfig where
  firstRing : Nat
  rings : Nat
  hallMask : Nat
  bar4 : Nat
  maxContexts : Nat
deriving DecidableEq, Repr

/-- The power states of the functions (R468). -/
inductive PciPower where
  | d0 | d3hot
deriving DecidableEq, Repr

/-- The PCIe side of the device: the link, the power state and the sizes that configuration software sets (Max Payload Size, Max Read
Request Size), VF Enable, the BAR4 size of the PF, the MSI-X tables (an unlisted entry is masked and otherwise 0) and the pending bits,
by function * 4096 + vector. -/
structure Pcie where
  powerState : PciPower := .d0
  maxPayload : Nat := 128
  maxReadRequest : Nat := 512
  linkUp : Bool := false
  width : Nat := 0
  speed : Nat := 0
  perst : Bool := false
  vfEnable : Bool := false
  bar4Log2 : Nat := 36
  msix : SMap (BitVec 128) := []
  pba : List Nat := []
  vfs : SMap (Option VfConfig) := []
  evictArea : Option (Nat × Nat) := none
  ringQueries : SMap (Option Nat) := []
deriving DecidableEq, Repr

/-! ### Garrid (15) -/

/-- What a Garrid port holds beside its registers. By virtual channel: the slots sent since link-up, the slots that the
peer reports freed, and the slots freed here (R518). `waiting` are the packets queued for the port with the slots still
to send; `replay` the packets of the replay buffer with the number of the flit that holds their last slot, counted since
link-up (R520); `rxWait` the number that a REPLAY_START must name (R522); `asked` and `askedBy` a number requested by this
port and by its peer, with how often in succession (R523); `attempts` the failed trainings in succession; `readmit` that
excluded lanes come back at the next training; `lastLanes` how many lanes served last; `scan` the lanes being scanned;
`ident` the lane mask and the LANE_DEGRADE bit of the peer's IDENT. For PTP, in units of the counter: the number and
the time of the last Sync, the last Sync's path from master to slave, the number and the time of the last Delay_Req, and
the mean path delay. -/
structure Port where
  sent : SMap Nat := []
  peerFreed : SMap Nat := []
  freed : SMap Nat := []
  waiting : List (Packet × Nat) := []
  seqNext : Nat := 0
  acked : Nat := 0
  replay : List (Nat × Packet) := []
  rxWait : Option Nat := none
  asked : Nat × Nat := (0, 0)
  askedBy : Nat × Nat := (0, 0)
  attempts : Nat := 0
  scan : Nat := 0
  readmit : Bool := false
  lastLanes : Nat := 0
  aligned : SMap Nat := []
  ident : Option (Nat × Bool) := none
  syncSeq : Nat := 0
  delaySeq : Nat := 0
  syncRx : Option (Nat × Int) := none
  path : Option Int := none
  delayTx : Option (Nat × Int) := none
  delay : Int := 0
deriving DecidableEq, Repr

/-! ### The configuration record, identity and the mailbox (18) -/

/-- The tables of one hall in a live part: the slot states, the remap table and the marks (R605). -/
structure LiveHall where
  slots : SMap Nat := []
  remap : SMap Nat := []
  marks : List Nat := []
deriving DecidableEq, Repr

/-- A live copy of the configuration record (R605, R606): whether its signature verifies, its GEN, the tables and marks of
the halls, and the margin plan: the target of each hall and the voltage of each slot, where they differ from delivery. -/
structure LiveCopy where
  valid : Bool := false
  gen : Nat := 0
  halls : SMap LiveHall := []
  targets : SMap Nat := []
  vreqs : SMap Nat := []
deriving DecidableEq, Repr

/-- A mailbox command in progress (R612): its opcode, its argument, the window as it stood, the frame of its start, the digest
of the spare map that an ATTEST has sampled, and the code that it will complete with. -/
structure SecCmd where
  op : Nat
  arg0 : Nat
  window : List Byte := []
  frame : Nat := 0
  sampled : List Byte := []
  code : Nat := 0
deriving DecidableEq, Repr

/-- An RSA key: its modulus and its private exponent (R609). -/
structure RsaKey where
  modulus : Nat := 0
  secret : Nat := 0
deriving DecidableEq, Repr

/-- The security block: the identity key, which is not held across a device reset (R609), the two live copies (at delivery copy 0 is valid and copy 1 erased), the copy in use, a live write in
progress and whether a change waits for the next, the mailbox command in progress, and the 4 KiB sectors of the image banks
that have been written, by number. -/
structure Sec where
  key : Option RsaKey := none
  live0 : LiveCopy := { valid := true, gen := 1 }
  live1 : LiveCopy := {}
  inUse : Option LiveCopy := none
  writing : Option (Nat × LiveCopy) := none
  changed : Bool := false
  cmd : Option SecCmd := none
  flash : SMap (List Byte) := []
deriving DecidableEq, Repr

/-! ### Power, pins and bring-up (19, 20, 21) -/

/-- The power state of the module: PWR_EN and PWR_GOOD, a rail ramp in progress, the lock-out after a failed one, the brake
pin and whether the brake holds until a tick, the class requests that wait for a landing, by serial, the input-power excursions, the
peak for SMBus, SMB_ALERT_N, the temperature events that last, the maintenance request and the time of the last
recomputation, the VCORE setpoints in units of 0.25 mV, and what the path-delay monitors read: the slack and the voltage
of each slot, by 27 * gallery + slot. -/
structure Power where
  good : Bool := true
  en : Bool := true
  ramping : Bool := false
  lockout : Bool := false
  brake : Bool := false
  braking : Bool := false
  classReqs : List (Nat × Nat) := []
  overSince : Option Nat := none
  overNoted : Bool := false
  peakOver : Bool := false
  smbPeak : Nat := 0
  alert : Bool := false
  hot : List Nat := []
  maintenance : Bool := false
  setpoints : SMap Nat := []
  slacks : SMap Nat := []
  vreqs : SMap Nat := []
deriving DecidableEq, Repr

/-- A cable connector (R661 to R664): whether a cable is present, whether VCBL is on, the level of CBL_LPMODE, and what the
cable's management memory declares: 0 a passive copper assembly of at most 1.0 m, 1 an active one, 2 neither or unreadable. -/
structure Cable where
  present : Bool := false
  vcbl : Bool := false
  lpmode : Bool := true
  kind : Nat := 0
deriving DecidableEq, Repr

/-- Bring-up (R668): when it began, the phases that run at the same time and have ended, the known-answer runs that have
ended with the halls that mismatched in the first, the units that each hall has run in the present one (R394), and ELAPSED_MS once
it is held. -/
structure Bring where
  began : Nat := 0
  hbmDone : Bool := false
  identityDone : Bool := false
  katRuns : Nat := 0
  katMiss : List Nat := []
  katUnits : SMap Nat := []
  elapsed : Option Nat := none
deriving DecidableEq, Repr

/-! ### The whole state -/

/-- The state of the device. `regs` lists the registers that do not hold their reset values, by BAR0 offset (a VF's
admin registers by function * 2^32 + offset); the other fields hold what registers do not show, or show computed. -/
structure State where
  /-- The commands that wait, first in, first out. -/
  pending : List Instr := []
  /-- What has left the device, in order (log entry 8). -/
  out : List Out := []
  /-- The number of free values drawn so far: the model's own field (log entry 3). -/
  free : Nat := 0
  /-- The number of acceptances so far, which orders requests and snapshots (R482): the model's own field. -/
  serial : Nat := 0
  regs : SMap W64 := []
  latchedHigh : List (Nat × W32) := []
  heldLow : List (Nat × W32) := []
  clk : Clock := {}
  fr : FrameCtl := {}
  halls : SMap Hall := []
  cores : SMap Core := []
  flight : List Packet := []
  mem : MemState := {}
  ctxs : SMap Ctx := []
  ls : SMap LsGroup := []
  rings : SMap Ring := []
  mboxes : SMap Mailbox := []
  pcie : Pcie := {}
  srcWin : SMap (Nat × Nat) := []
  dies : SMap (Option Step) := []
  devStep : Option Step := none
  dumps : List Dump := []
  powerCycleReq : Bool := false
  powerCycleCopy : Bool := false
  dumpCopies : List Nat := []
  bring : Bring := {}
  ports : SMap Port := []
  sec : Sec := {}
  power : Power := {}
  cables : SMap Cable := []
deriving DecidableEq, Repr

/-- The state right after the reset of a power-up: PWR_GOOD has been released and bring-up stands at phase ROM, with
DEV_BRINGUP.POWERUP set (R681). Every other register stands at its reset value and every memory lists nothing (log
entry 1 names the values that the manual leaves open). -/
def State.reset : State := { regs := [(8, 0x08000000)] }

end Sys2Proof.Machine
end

