-- ==== Sys2Proof/Machine/Ops.lean ====
section
/-! DEFINITION. The named operations over the state that every meaning is written with: sparse maps, bit fields,
registers, the memories, the grid, time, and what leaves the device. -/
namespace Sys2Proof.Machine

/-! ### Sparse maps -/

/-- The value of key `k`, `d` where it is not listed. -/
def mapGet {α : Type} (d : α) : SMap α → Nat → α
  | [], _ => d
  | (k', v) :: r, k => if k' = k then v else mapGet d r k

/-- The map with an entry for key `k` put in its place. -/
def mapPut {α : Type} : SMap α → Nat → α → SMap α
  | [], k, v => [(k, v)]
  | (k', v') :: r, k, v =>
    if k < k' then (k, v) :: (k', v') :: r
    else if k = k' then (k, v) :: r
    else (k', v') :: mapPut r k v

/-- The map with key `k` at `v`: keys stay rising and a value equal to `d` is not listed. -/
def mapSet {α : Type} [DecidableEq α] (d : α) (m : SMap α) (k : Nat) (v : α) : SMap α :=
  if v = d then m.filter fun e => e.1 != k else mapPut m k v

/-- The map without the keys from `lo` up to but not including `hi`. -/
def mapDropRange {α : Type} (m : SMap α) (lo hi : Nat) : SMap α :=
  m.filter fun e => e.1 < lo || hi ≤ e.1

/-- The entries of the keys from `lo` up to but not including `hi`. -/
def mapKeepRange {α : Type} (m : SMap α) (lo hi : Nat) : SMap α :=
  m.filter fun e => lo ≤ e.1 && e.1 < hi

/-- The canonical form of a sparse map: keys strictly rising, no entry equal to the default. -/
def mapWf {α : Type} [DecidableEq α] (d : α) : SMap α → Bool
  | [] => true
  | [(_, v)] => v ≠ d
  | (k, v) :: (k', v') :: r => v ≠ d && k < k' && mapWf d ((k', v') :: r)

/-! ### Bit fields of numbers (R10) -/

/-- The field [hi:lo] of `v`. -/
def bits (v hi lo : Nat) : Nat := (v >>> lo) % 2 ^ (hi - lo + 1)

/-- Bit `n` of `v`. -/
def bit (v n : Nat) : Bool := v.testBit n

/-- `v` with the field [hi:lo] set to the low bits of `x`. -/
def setBits (v hi lo x : Nat) : Nat :=
  v - (bits v hi lo) * 2 ^ lo + (x % 2 ^ (hi - lo + 1)) * 2 ^ lo

/-- 1 for true, 0 for false. -/
def b2n (b : Bool) : Nat := if b then 1 else 0

/-- The number that the low `w` bits of `v` spell in two's complement. -/
def sext (w v : Nat) : Int :=
  let u := v % 2 ^ w
  if u < 2 ^ (w - 1) then (u : Int) else (u : Int) - (2 ^ w : Nat)

/-- The low `w` bits of an integer. -/
def wrapTo (w : Nat) (i : Int) : Nat := (i % ((2 ^ w : Nat) : Int)).toNat

/-- The bits of `v` that are 1, below `n`, in ascending order. -/
def bitsOf (v n : Nat) : List Nat := (List.range n).filter (v.testBit ·)

/-- A mask with the listed bits. -/
def maskOf (l : List Nat) : Nat := l.foldl (fun m b => m ||| (1 <<< b)) 0

/-- `v` rounded up to a multiple of `n`. -/
def alignUp (v n : Nat) : Nat := (v + n - 1) / n * n

/-- The quotient rounded up. -/
def ceilDiv (a b : Nat) : Nat := (a + b - 1) / b

/-- The little-endian bytes of a number (R11). -/
def leBytes : Nat → Nat → List Byte
  | 0, _ => []
  | n + 1, v => BitVec.ofNat 8 v :: leBytes n (v / 256)

/-- The number that little-endian bytes spell (R11). -/
def leNat : List Byte → Nat
  | [] => 0
  | b :: r => b.toNat + 256 * leNat r

/-- `n` bytes at offset `o` of a structure, as a number. Bytes beyond its end read as 0. -/
def leField (bs : List Byte) (o n : Nat) : Nat := leNat ((bs.drop o).take n)

/-! ### Registers -/

/-- The reset value of the register at offset `a`: that of its row, and for FLT_SRC_CFG the value of Table 16.9 for the
source's base class. An offset without a register reads 0 (R17). -/
def resetOf (a : Nat) : Nat :=
  if 0x3001000 ≤ a ∧ a < 0x3004000 ∧ a % 0x80 = 0 then
    let src := (a - 0x3001000) / 0x80
    if src ∈ [0x11, 0x12, 0x13, 0x15, 0x20, 0x22, 0x3B, 0x44, 0x5A, 0x5D] then 0x9936EE80
    else if src ∈ [0x14, 0x16, 0x18, 0x19, 0x1A, 0x23, 0x24, 0x25, 0x26, 0x27, 0x31, 0x32, 0x33, 0x35, 0x36, 0x37, 0x38,
        0x39, 0x3A, 0x3C, 0x3F, 0x45, 0x48, 0x4C, 0x4F, 0x51, 0x56, 0x57, 0x5C] then 0x8200EA60
    else 0x004003E8
  else match regRow (a % 0x100000000) with
    | some r => r.reset
    | none => 0

/-- The stored value of the register at offset `a`. -/
def State.reg (s : State) (a : Nat) : Nat := (mapGet (BitVec.ofNat 64 (resetOf a)) s.regs a).toNat

/-- The state with the register at offset `a` holding `v`. -/
def State.setReg (s : State) (a v : Nat) : State :=
  { s with regs := mapSet (BitVec.ofNat 64 (resetOf a)) s.regs a (BitVec.ofNat 64 v) }

/-- The field [hi:lo] of a register. -/
def State.fld (s : State) (a hi lo : Nat) : Nat := bits (s.reg a) hi lo

/-- The state with one field of a register set. -/
def State.setFld (s : State) (a hi lo v : Nat) : State := s.setReg a (setBits (s.reg a) hi lo v)

/-- A 32-bit counter advanced by `n`, saturating at 0xFFFF_FFFF. -/
def State.count (s : State) (a n : Nat) : State := s.setReg a (min (s.reg a + n) 0xFFFFFFFF)

/-- A 64-bit counter advanced by `n`, saturating. -/
def State.count64 (s : State) (a n : Nat) : State := s.setReg a (min (s.reg a + n) 0xFFFFFFFFFFFFFFFF)

/-- The registers from offset `lo` up to `hi` at their reset values, with what half accesses left of them discarded
(R683). -/
def State.resetRegs (s : State) (lo hi : Nat) : State :=
  { s with
    regs := mapDropRange s.regs lo hi
    latchedHigh := s.latchedHigh.filter fun e => bits e.1 31 0 < lo || hi ≤ bits e.1 31 0
    heldLow := s.heldLow.filter fun e => bits e.1 31 0 < lo || hi ≤ bits e.1 31 0 }

/-- What half accesses left of a register discarded, as an access of its whole width does (R683). -/
def State.dropHalves (s : State) (a : Nat) : State :=
  { s with latchedHigh := s.latchedHigh.filter (·.1 ≠ a), heldLow := s.heldLow.filter (·.1 ≠ a) }

/-! ### The grid (R26 to R29) -/

/-- The number of a core, 80 y + x (Table 17.7). -/
def coreNo (c : Coord) : Nat := 80 * c.y.toNat + c.x.toNat

/-- The die of the core at (x, y). -/
def dieOf (x y : Nat) : Nat := 2 * b2n (25 ≤ y) + b2n (40 ≤ x)

/-- The hall of the core at (x, y). -/
def hallOf (x y : Nat) : Nat := 4 * dieOf x y + (x % 40) / 10

/-- The gallery of the core at (x, y). -/
def galleryOf (x y : Nat) : Nat := 10 * hallOf x y + 5 * ((x % 10) / 5) + (y % 25) / 5

/-- The position of the core at (x, y) within its gallery. -/
def posOf (x y : Nat) : Nat := 5 * (y % 5) + x % 5

/-- The x of position `p` of gallery `g` (R27). -/
def xOf (g p : Nat) : Nat := 40 * ((g / 10 / 4) % 2) + 10 * ((g / 10) % 4) + 5 * ((g % 10) / 5) + p % 5

/-- The y of position `p` of gallery `g` (R27). -/
def yOf (g p : Nat) : Nat := 25 * (g / 10 / 4 / 2) + 5 * (g % 5) + p / 5

/-- The number of the core at position `p` of gallery `g`. -/
def coreAt (g p : Nat) : Nat := 80 * yOf g p + xOf g p

/-- The x and y of a core number. -/
def coreX (n : Nat) : Nat := n % 80
def coreY (n : Nat) : Nat := n / 80

/-- The hall of a core number. -/
def coreHall (n : Nat) : Nat := hallOf (coreX n) (coreY n)

/-- The gallery of a core number. -/
def coreGallery (n : Nat) : Nat := galleryOf (coreX n) (coreY n)

/-- The numbers of the 250 cores of a hall: galleries in ascending order and, within each, positions 0 to 24. -/
def hallCores (h : Nat) : List Nat :=
  (List.range 10).flatMap fun j => (List.range 25).map fun p => coreAt (10 * h + j) p

/-- The index 25 j + p of a core within its hall. -/
def hallIndex (n : Nat) : Nat := 25 * (coreGallery n % 10) + posOf (coreX n) (coreY n)

/-- The stagger rank of a gallery (R63). -/
def staggerRank (g : Nat) : Nat := 4 * (g % 40) + g / 40

/-! ### Parts of the state -/

def State.core (s : State) (n : Nat) : Core := mapGet {} s.cores n
def State.setCore (s : State) (n : Nat) (c : Core) : State := { s with cores := mapSet {} s.cores n c }
/-- The state with the core `n` changed by `f`. -/
def State.onCore (s : State) (n : Nat) (f : Core → Core) : State := s.setCore n (f (s.core n))
/-- The state with the control processor of core `n` changed by `f`. -/
def State.onCp (s : State) (n : Nat) (f : Cp → Cp) : State := s.onCore n fun c => { c with cp := f c.cp }
/-- The state with the sequencer of core `n` changed by `f`. -/
def State.onSeq (s : State) (n : Nat) (f : Seq → Seq) : State := s.onCore n fun c => { c with seq := f c.seq }

def State.hall (s : State) (h : Nat) : Hall := mapGet {} s.halls h
def State.onHall (s : State) (h : Nat) (f : Hall → Hall) : State :=
  { s with halls := mapSet {} s.halls h (f (s.hall h)) }

def State.ctx (s : State) (c : Nat) : Ctx := mapGet {} s.ctxs c
def State.onCtx (s : State) (c : Nat) (f : Ctx → Ctx) : State :=
  { s with ctxs := mapSet {} s.ctxs c (f (s.ctx c)) }

def State.ring (s : State) (r : Nat) : Ring := mapGet {} s.rings r
def State.onRing (s : State) (r : Nat) (f : Ring → Ring) : State :=
  { s with rings := mapSet {} s.rings r (f (s.ring r)) }

/-- The ids of the contexts that are not FREE, in ascending order. -/
def State.liveCtxs (s : State) : List Nat := (s.ctxs.filter fun e => e.2.state ≠ .free).map (·.1)

/-- The state with something sent to the outside. -/
def State.emit (s : State) (o : Out) : State := { s with out := s.out ++ [o] }

/-- 1PPS_OUT falls if it is high. -/
def State.ppsLow (s : State) : State :=
  if s.fr.ppsHigh then ({ s with fr := { s.fr with ppsHigh := false } } : State).emit (.ppsLevel false) else s

/-- The next free value (log entry 3). -/
def State.freeValue (s : State) : W64 := Config.freeBits s.free
/-- The state after a free value has been drawn. -/
def State.drawn (s : State) : State := { s with free := s.free + 1 }

/-- The state changed by `f` for each element of a list, in order. -/
def State.each {α : Type} (s : State) (l : List α) (f : State → α → State) : State := l.foldl f s

/-! ### Memory -/

/-- Where the mezzanine, and the alcove of core `n`, stand in the key space of the memories (log entry 9). -/
def mezBase : Nat := 0x10000000000
def alcoveBase (n : Nat) : Nat := 0x20000000000 + 0x30000 * n

/-- The byte at a key: what was last written there, 0 where nothing was (log entry 9), an open value where the manual
leaves the contents undefined. -/
def State.byte (s : State) (k : Nat) : Byte :=
  match s.mem.undef.find? fun r => r.1 ≤ k && k < r.2.1 with
  | some r => Config.openByte r.2.2 k
  | none => mapGet 0 s.mem.cells k

/-- Undefined ranges without the keys from `lo` up to `hi`. -/
def cutUndef (l : List (Nat × Nat × Nat)) (lo hi : Nat) : List (Nat × Nat × Nat) :=
  l.flatMap fun r =>
    (if r.1 < min r.2.1 lo then [(r.1, min r.2.1 lo, r.2.2)] else [])
    ++ (if max r.1 hi < r.2.1 then [(max r.1 hi, r.2.1, r.2.2)] else [])

/-- The state with every byte from key `lo` up to `hi` undefined. -/
def State.forget (s : State) (lo hi : Nat) : State :=
  { s with
    free := s.free + 1
    mem := { s.mem with
      cells := mapDropRange s.mem.cells lo hi
      undef := cutUndef s.mem.undef lo hi ++ [(lo, hi, s.free)] } }

/-- The memory cells with one byte written. -/
def writeCell (m : List Host.Cell) (k : Nat) (b : Byte) : List Host.Cell := mapSet 0 m k b

/-- The memory cells with bytes written from a key on. -/
def writeCells : List Host.Cell → Nat → List Byte → List Host.Cell
  | m, _, [] => m
  | m, k, b :: r => writeCells (writeCell m k b) (k + 1) r

/-- Whether cells are in the one canonical form: keys strictly rising, and no byte equal to what an unlisted key reads
as. -/
def Memory.wf (m : List Host.Cell) : Bool := mapWf (0 : Byte) m

/-- `n` bytes from a key on. -/
def State.bytesAt (s : State) (k n : Nat) : List Byte := (List.range n).map fun i => s.byte (k + i)

/-- A little-endian number of `n` bytes at a key (R11). -/
def State.natAt (s : State) (k n : Nat) : Nat := leNat (s.bytesAt k n)

/-- Poison and errors are cleared by a write that covers the whole word or sector: 8 bytes in the SRAM tiers, 32 in HBM
(R323, R324). -/
def eccUnit (k : Nat) : Nat := if k < mezBase then 32 else 8

/-- The state with bytes written from a key on. -/
def State.writeBytes (s : State) (k : Nat) (bs : List Byte) : State :=
  { s with mem := { s.mem with
      cells := writeCells s.mem.cells k bs
      undef := cutUndef s.mem.undef k (k + bs.length)
      ecc := s.mem.ecc.filter fun e => ¬ (k ≤ e.key ∧ e.key + eccUnit e.key ≤ k + bs.length) } }

/-- The state with a number of `n` bytes written at a key. -/
def State.writeNat (s : State) (k n v : Nat) : State := s.writeBytes k (leBytes n v)

/-- The state with scattered bytes written, in order. An error stays unless the writes cover its whole word or
sector. -/
def State.writeList (s : State) (l : List (Nat × Byte)) : State :=
  { s with mem := { s.mem with
      cells := l.foldl (fun m e => writeCell m e.1 e.2) s.mem.cells
      undef := if s.mem.undef = [] then [] else l.foldl (fun u e => cutUndef u e.1 (e.1 + 1)) s.mem.undef
      ecc := s.mem.ecc.filter fun e => ¬ (List.range (eccUnit e.key)).all fun i => l.any fun w => w.1 == e.key + i } }

/-- The state with every byte from key `lo` up to `hi` zero. -/
def State.zeroRange (s : State) (lo hi : Nat) : State :=
  { s with mem := { s.mem with
      cells := mapDropRange s.mem.cells lo hi
      undef := cutUndef s.mem.undef lo hi
      ecc := s.mem.ecc.filter fun e => e.key < lo || hi ≤ e.key } }

/-- The alcoves of a hall's cores and its mezzanine slices written to zero (R321). -/
def State.zeroHall (s : State) (h : Nat) : State :=
  let s := s.each (hallCores h) fun s n => s.zeroRange (alcoveBase n) (alcoveBase (n + 1))
  s.zeroRange (mezBase + 0x300000 * (10 * h)) (mezBase + 0x300000 * (10 * h + 10))

/-! ### Time (R48, log entry 2) -/

/-- Units of the time counter in one ns. -/
def unitsPerNs : Nat := 7000000 * 65536

/-- The whole ns of the time counter. -/
def State.timeNs (s : State) : Nat := s.clk.time / unitsPerNs
/-- The seconds, nanoseconds and fraction of the time counter. -/
def State.timeSec (s : State) : Nat := (s.timeNs / 1000000000) % 2 ^ 48
def State.timeSubNs (s : State) : Nat := s.timeNs % 1000000000
def State.timeFrac (s : State) : Nat := (s.clk.time % unitsPerNs) / 7000000
/-- The layout of FTK_SNAP_NSF and its like. -/
def State.timeNsf (s : State) : Nat := 65536 * s.timeSubNs + s.timeFrac

/-- The core cycles since power-up (R8: 4/7 ns each). -/
def State.cycles (s : State) : Nat := s.clk.mono / (4 * 65536)
/-- The free-running time in ns since power-up. -/
def State.monoNs (s : State) : Nat := s.clk.mono / (7 * 65536)

/-- The counter moved forward to an instant in ns that an event names, the free-running clock with it. An instant that
has passed moves nothing. -/
def State.advanceTo (s : State) (ns : Nat) : State :=
  let t := unitsPerNs * ns
  if s.clk.time < t then
    { s with clk := { s.clk with time := t, mono := s.clk.mono + (t - s.clk.time) / 1000000 } }
  else s

/-- A rate correction within the 50 parts per million of R52. -/
def clampPpm (i : Int) : Int := max (-50) (min 50 i)

/-- The rate in ppm by which the counter runs faster than with its frequency correction alone: towards the source while an
offset remains, at the full 50 ppm in an excursion beyond 10 µs with ticks (R52, R53). -/
def State.slewRate (s : State) : Int :=
  let f := clampPpm s.clk.freq
  let k : Int := if s.clk.excursion ∧ s.fr.ticking then 100 else max 1 (min 50 (Config.slewPpm s.cycles))
  if 0 < s.clk.remain then clampPpm (f - k) - f else if s.clk.remain < 0 then clampPpm (f + k) - f else 0

/-- How far a core cycle slews the counter, in its units: never past the source. -/
def State.slewStep (s : State) : Int :=
  let d := 4 * 65536 * s.slewRate
  if 0 ≤ s.clk.remain then max d (-s.clk.remain) else min d (-s.clk.remain)

/-- One core cycle passes: the free-running clock advances by a cycle; the counter, once loaded, by a cycle with the held
frequency correction and what the slew adds, together at most 50 parts per million off (R52, R685). -/
def State.idleCycle (s : State) : State :=
  let inc := 4 * 65536 * (1000000 + clampPpm s.clk.freq) + s.slewStep
  { s with clk := { s.clk with
      mono := s.clk.mono + 4 * 65536
      time := if s.clk.loaded then s.clk.time + inc.toNat else s.clk.time
      remain := if s.clk.loaded then s.clk.remain + s.slewStep else s.clk.remain } }

/-- The current frame number. -/
def State.frame (s : State) : Nat := s.reg Reg.FTK_FRAME

/-- The device's Garrid id (R534). -/
def State.deviceId (s : State) : Nat := s.fld Reg.GAR_DEVICE_ID 15 0

/-- Whether bring-up has reached READY: until then, and while the module is off, only DEV, FLT, RST and SEC registers answer
(R671). -/
def State.ready (s : State) : Bool := s.power.good && s.fld Reg.DEV_BRINGUP 31 28 == 7
/-- What a register access does: its effect `t` once the device is ready, nothing before. -/
def State.whenReady (s t : State) : State := if s.ready then t else s
/-- Whether the FLT and RST blocks answer: not when boot has stopped (R604, R671). -/
def State.answers (s : State) : Bool := s.power.good && s.fld Reg.DEV_BRINGUP 31 28 != 8

/-! ### Halls -/

/-- The state of slot `t` of gallery index `j` of a hall: at delivery 0 to 24 serve and 25, 26 are spare (R30). -/
def Hall.slotState (h : Hall) (j t : Nat) : Nat := mapGet (b2n (25 ≤ t)) h.slots (27 * j + t)
def Hall.setSlot (h : Hall) (j t v : Nat) : Hall := { h with slots := mapSet (b2n (25 ≤ t)) h.slots (27 * j + t) v }
/-- The slot that serves position `p` of gallery index `j` (R30). -/
def Hall.slotOf (h : Hall) (j p : Nat) : Nat := mapGet p h.remap (25 * j + p)
def Hall.setSlotOf (h : Hall) (j p v : Nat) : Hall := { h with remap := mapSet p h.remap (25 * j + p) v }

/-- Whether a hall is in service (Table 1.4). -/
def State.online (s : State) (h : Nat) : Bool := bit (s.reg Reg.DEV_HALL_ONLINE) h

/-- Whether a step of the reset stair covers a hall (R572). -/
def State.inStep (s : State) (h : Nat) : Bool :=
  (s.hall h).step.isSome || (mapGet none s.dies (h / 4)).isSome || s.devStep.isSome

/-- The context that holds a core's hall. -/
def State.holderOf (s : State) (n : Nat) : Option Nat := (s.hall (coreHall n)).holder

end Sys2Proof.Machine
end

