-- ==== Sys2Proof/Machine/Faults.lean ====
section
/-! DEFINITION. What a reset step writes down before it begins (the crash dump, R591), the device reset, and the fault
collector: one operation raises an event with everything that follows from it (16). -/
namespace Sys2Proof.Machine

/-! ### The live record (R605 to R607) -/

/-- Identity as SEC_STATUS shows it: 0 PENDING, 1 READY, 2 FAILED (R611). -/
def State.identity (s : State) : Nat := s.fld Reg.SEC_STATUS 9 8

/-- Records a code of Table 18.7. -/
def State.secCode (s : State) (code : Nat) : State := s.setFld Reg.SEC_STATUS 31 16 code

/-- The live part as the device holds it: the tables, states and marks of the halls and the margin plan (R605, R631). -/
def State.livePart (s : State) (gen : Nat) : LiveCopy :=
  { valid := true, gen := gen
    halls := (List.range 16).foldl (fun m h =>
      let x := s.hall h
      mapSet {} m h { slots := x.slots, remap := x.remap, marks := x.marks : LiveHall }) []
    targets := (List.range 16).foldl (fun m h => mapSet 0 m h (s.fld (Reg.PWR_VCORE_PLAN h) 31 16)) []
    vreqs := s.power.vreqs }

/-- A live copy of the block. -/
def Sec.copy (x : Sec) (k : Nat) : LiveCopy := if k = 0 then x.live0 else x.live1
def Sec.setCopy (x : Sec) (k : Nat) (c : LiveCopy) : Sec := if k = 0 then { x with live0 := c } else { x with live1 := c }

/-- A write of the live part begins, over the copy with the lower GEN, which holds nothing until the write ends (R607). -/
def State.startLiveWrite (s : State) : State :=
  let k := if s.sec.live1.gen < s.sec.live0.gen then 1 else 0
  let gen := (max s.sec.live0.gen s.sec.live1.gen + 1) % 2 ^ 32
  { s with sec := { s.sec.setCopy k {} with writing := some (k, s.livePart gen), changed := false } }

/-- The live part has changed: it is written now, or after the write in progress; refused while identity is not READY
(R607). -/
def State.liveChange (s : State) : State :=
  if s.identity ≠ 1 then s
  else if s.sec.writing.isSome then { s with sec := { s.sec with changed := true } }
  else s.startLiveWrite

/-- A slot of a hall is marked for retirement (R587, R607). `k` is 27 times the gallery index plus the slot. -/
def State.markSlot (s : State) (h k : Nat) : State :=
  if (s.hall h).marks.contains k then s
  else (s.onHall h fun x => { x with marks := x.marks ++ [k] }).liveChange

/-- The copy with the higher GEN among those that verify (R606). -/
def Sec.newest (x : Sec) : Option LiveCopy :=
  match x.live0.valid, x.live1.valid with
  | true, true => some (if x.live0.gen < x.live1.gen then x.live1 else x.live0)
  | true, false => some x.live0
  | false, true => some x.live1
  | false, false => none

/-- A hall as a reset restores it: with the tables of the record, or with the device's copy where identity is not READY (R37). The
manual does not say what a reset restores while a change waits to be written: the device's copy (DESIGN CHOICE, log entry 110). -/
def State.restoredHall (s : State) (h : Nat) : Hall :=
  match (if s.identity = 1 ∧ s.sec.writing.isNone then s.sec.newest else none) with
  | some c => let l : LiveHall := mapGet {} c.halls h; { s.hall h with slots := l.slots, remap := l.remap }
  | none => s.hall h

/-! ### What registers show of the slots (Tables 1.4 and 1.6) -/

/-- The slots of a gallery index of a hall that are in a state. -/
def Hall.slotsIn (x : Hall) (j st : Nat) : List Nat := (List.range 27).filter fun t => x.slotState j t == st

/-- HAL_GALLERY_SPARES. A deficient gallery may hold 3 SPARE slots or more, which Table 1.6 says does not occur: the counts are
then summed as they are (DESIGN CHOICE, log entry 111). -/
def Hall.spares (x : Hall) : Nat := (List.range 10).foldl (fun v j => v + (x.slotsIn j 1).length * 4 ^ j) 0

/-- The code of a discipline state. -/
def Disc.code : Disc → Nat
  | .unset => 0 | .acquiring => 1 | .locked => 2 | .holdover => 3 | .freerun => 4

/-- FTK_STATUS, with TICKING and DISC (Table 2.6). -/
def State.ftkStatus (s : State) : Nat :=
  setBits (setBits (s.reg Reg.FTK_STATUS) 2 0 s.clk.disc.code) 3 3 (b2n s.fr.ticking)

/-! ### Crash dumps (R591, R592) -/

/-- The kind code of Table 17.1. -/
def ResetKind.code : ResetKind → Nat
  | .compute => 1 | .hall => 2 | .die => 3 | .device => 4 | .power => 5

/-- The deadline of a step in ms (Table 17.1). -/
def ResetKind.deadlineMs : ResetKind → Nat
  | .compute => 500 | .hall => 2000 | .die => 4000 | .device => 10000 | .power => 0

/-- The payload bytes of a unit record (Table 17.7). -/
def unitBytes (kind : Nat) : Nat :=
  match kind with
  | 1 => 256 | 2 => 256 | 3 => 12288 | 4 => 7680 | 5 => 4000 | 6 => 1024 | 7 => 1024 | 8 => 512 | 9 => 65536 | _ => 64

/-- The bytes of a dump, its header included (Table 17.6). -/
def dumpBytes (records : List (Nat × Nat × Nat)) : Nat :=
  records.foldl (fun n r => n + 16 + (if r.2.2 = 0 then unitBytes r.1 else 0)) 64

/-- The unit that the cause of a step names, read last (R592). -/
def causeUnit (c : Cause) : Option (Nat × Nat) :=
  if c.src = 0x28 then some (6, 10 * c.hall + c.inst)
  else if 0x29 ≤ c.src ∧ c.src ≤ 0x2F then some (4, 80 * c.y + c.x)
  else none

/-- The units of a dump in ascending kind and index, the unit of the cause last (R592, Table 17.7). -/
def State.dumpUnits (s : State) (kind : ResetKind) (target : Nat) (c : Cause) (ctxs : List Nat) : List (Nat × Nat) :=
  let dev := kind = .device
  let halls := match kind with
    | .device => List.range 16
    | .die => (List.range 4).map (4 * target + ·)
    | _ => [target]
  let inner := if dev then
      halls.filter fun h => let l := s.reg (Reg.HAL_FLT_LATCH h); bit l 63 && 3 ≤ bits l 59 57
    else halls
  let chans := match kind with
    | .compute => []
    | .device => (List.range 256).filter fun ch => s.reg (Reg.MEM_CH_STATUS ch) ≠ 2
    | _ => halls.flatMap fun h => (List.range 16).map (16 * h + ·)
  let only := c.src = 0x59 ∨ c.src = 0x5B
  let all := [(1, 0), (2, 0)] ++ (if only then [] else
    halls.map (3, ·)
    ++ ((List.range 4000).filter fun n => inner.contains (coreHall n)).map (4, ·)
    ++ (inner.flatMap fun h => (List.range 10).map fun j => (5, 10 * h + j))
    ++ (inner.flatMap fun h => (List.range 10).map fun j => (6, 10 * h + j))
    ++ chans.map (7, ·)
    ++ (if dev then (List.range 16).map (8, ·) else [])
    ++ [(9, 0)] ++ ctxs.map (10, ·))
  match causeUnit c with
  | some u => if all.contains u then all.filter (· ≠ u) ++ [u] else all
  | none => all

/-- Whether two stretches of the 256 MiB log share a byte. -/
def logOverlap (a n b m : Nat) : Bool :=
  let d := (b + 0x10000000 - a) % 0x10000000
  let e := (a + 0x10000000 - b) % 0x10000000
  d < n || e < m

/-- A dump written at the head of the log; older dumps that it overwrites are gone. A copy to the host begins when the
driver asked for copies (R593). -/
def State.writeDump (s : State) (kind : ResetKind) (target : Nat) (c : Cause) (ctxs : List Nat) : State :=
  let recs := (s.dumpUnits kind target c ctxs).map fun u => (u.1, u.2, 0)
  let head := s.reg Reg.RST_DUMP_HEAD
  let size := alignUp (dumpBytes recs) 64
  let valid := s.clk.disc ≠ .unset
  let d : Dump :=
    { offset := head, kind := kind.code, target := target
      serial := (s.reg Reg.RST_DUMP_SERIAL + 1) % 2 ^ 32, frame := s.frame, time := s.clk.time, timeValid := valid
      src := c.src, code := c.code, records := recs
      regs := ((List.range 16).foldl (fun (s : State) h => s.setReg (Reg.HAL_GALLERY_SPARES h) (s.hall h).spares)
        (s.setReg Reg.FTK_STATUS s.ftkStatus)).regs }
  let s := { s with dumps := (s.dumps.filter fun e : Dump =>
      !logOverlap head size e.offset (alignUp (dumpBytes e.records) 64)) ++ [d] }
  let s := s.setReg Reg.RST_DUMP_LAST head
  let s := s.setReg Reg.RST_DUMP_HEAD ((head + size) % 0x10000000)
  let s := s.setReg Reg.RST_DUMP_SERIAL d.serial
  if s.reg Reg.RST_DUMP_HOST_BYTES = 0 then s
  else { s.setFld Reg.RST_DUMP_STATUS 31 28 8 with dumpCopies := s.dumpCopies ++ [head] }

/-- What RST_LAST and RST_LAST_FRAME show of a step that ended (outcome 0), escalated (1) or was abandoned (2). -/
def State.stepEnded (s : State) (st : Step) (target outcome : Nat) : State :=
  let us := min ((s.monoNs - st.began) / 1000) 0xFFFFFFFF
  let v := 2 ^ 61 * st.kind.code + 2 ^ 59 * outcome + 2 ^ 55 * target + 2 ^ 48 * st.cause.src + 2 ^ 32 * st.cause.code
    + us
  (s.setReg Reg.RST_LAST v).setReg Reg.RST_LAST_FRAME st.frame

/-! ### The device reset (Table 17.2) -/

/-- Whether a register keeps its value through a device reset: the fault latches with their times and PEND (R564), the
RST block and the balustrade registers (R599). -/
def keptByDeviceReset (a : Nat) : Bool :=
  (0x3000010 ≤ a && a < 0x3000034) || (0x3100000 ≤ a && a < 0x3200000)
  || (0x1000000 ≤ a && a < 0x2000000 && ((0x3000 ≤ a % 0x100000 && a % 0x100000 < 0x3024)
      || (0x3100 ≤ a % 0x100000 && a % 0x100000 < 0x3108)))

/-- What a hall keeps through a device reset that comes at a core cycle: the tables, until the boot restores them from the
record (R37), the marks (R587), and the recoveries counted (R571, R599). -/
def Hall.afterDeviceReset (h : Hall) (cycles : Nat) : Hall :=
  { slots := h.slots, remap := h.remap, marks := h.marks, dropTimes := h.dropTimes, recTimes := h.recTimes
    resetAt := cycles }

/-- The pins keep their levels through a device reset, and temperature events that last go on; the rest of the PWR block starts
again (R639, R649). -/
def Power.afterDeviceReset (p : Power) : Power :=
  { good := p.good, en := p.en, ramping := p.ramping, lockout := p.lockout, brake := p.brake, braking := p.brake
    alert := p.alert, smbPeak := p.smbPeak, hot := p.hot }

/-- PWR_STATUS shows the brake, and while it is asserted DUTY 8 (R627). -/
def State.showBrake (s : State) : State :=
  if s.power.brake then (s.setFld Reg.PWR_STATUS 16 16 1).setFld Reg.PWR_STATUS 14 8 8 else s

/-- The state that a device reset leaves (R565, Table 17.2): every block at its reset values but for what Table 17.2,
R506, R510, R564 and R599 keep. Bring-up begins again at phase ROM with POWERUP 0. -/
def State.deviceReset (s : State) : State :=
  { State.reset with
    pending := s.pending
    out := s.out
    free := s.free
    serial := s.serial
    regs := s.regs.filter fun e => keptByDeviceReset e.1
    clk := { mono := s.clk.mono }
    halls := (List.range 16).foldl (fun m h => mapSet {} m h ((s.hall h).afterDeviceReset s.cycles)) []
    pcie := { powerState := s.pcie.powerState, maxPayload := s.pcie.maxPayload, maxReadRequest := s.pcie.maxReadRequest
              linkUp := s.pcie.linkUp, width := s.pcie.width, speed := s.pcie.speed, perst := s.pcie.perst
              bar4Log2 := s.pcie.bar4Log2, msix := s.pcie.msix, pba := s.pcie.pba }
    dumps := s.dumps
    dumpCopies := s.dumpCopies
    powerCycleReq := s.powerCycleReq
    bring := { began := s.monoNs }
    sec := { live0 := s.sec.live0, live1 := s.sec.live1, flash := s.sec.flash }
    power := s.power.afterDeviceReset
    cables := s.cables }

/-- A device reset begins: its dump is written, smaller steps are abandoned (R572), and the device starts again. -/
def State.startDeviceReset (s : State) (c : Cause) : State :=
  let s := s.writeDump .device 0 c []
  let s := s.each (List.range 16) fun s h => match (s.hall h).step with
    | some st => s.stepEnded st h 2
    | none => s
  let s := s.each (List.range 4) fun s d => match mapGet none s.dies d with
    | some st => s.stepEnded st d 2
    | none => s
  let s := s.count Reg.RST_CNT_DEVICE 1
  let st : Step := { kind := .device, began := s.monoNs, frame := s.frame, cause := c }
  { s.deviceReset.showBrake with devStep := some st }

/-! ### Events (R549 to R562) -/

/-- An event of a fault source: the source, the hall of a hall-scope source, the context that a tagged source concerns,
and what R550 records. -/
structure Event where
  src : Nat
  hall : Nat := 0
  ctx : Option Nat := none
  code : Nat := 0
  inst : Nat := 0
  x : Nat := 0
  y : Nat := 0
deriving DecidableEq, Repr

/-- An event as the cause of a step: the frame that raised it, and the first frame of the cause (R575). -/
def Event.cause (e : Event) (frame first : Nat) : Cause :=
  { src := e.src, code := e.code, hall := e.hall, inst := e.inst, x := e.x, y := e.y, frame := frame, first := first }

/-- Whether a source is tagged (Tables 16.1 and 16.2). -/
def srcTagged (src : Nat) : Bool :=
  src ≤ 0x10 || (0x17 ≤ src && src ≤ 0x1A) || (0x46 ≤ src && src ≤ 0x49)

/-- The base class of a source (Tables 16.1 to 16.3): 0 INFO, 1 CORRECTED, 2 DEGRADED, 3 SEVERE, 4 FATAL. -/
def srcBase (src : Nat) : Nat :=
  if src ∈ [0x4D, 0x4E, 0x52, 0x54, 0x55, 0x59, 0x5B, 0x5E, 0x5F] then 4
  else if src ∈ [0x01, 0x02, 0x17, 0x1B, 0x1E, 0x30, 0x34, 0x3D, 0x3E, 0x40, 0x41, 0x42, 0x43, 0x47, 0x49, 0x4A, 0x4B,
      0x50, 0x53, 0x58] then 0
  else if resetOf (Reg.FLT_SRC_CFG src) = 0x9936EE80 then 1
  else if resetOf (Reg.FLT_SRC_CFG src) = 0x8200EA60 then 2
  else 3

/-- Whether a source has hall scope (R549). -/
def srcHall (src : Nat) : Bool := src < 0x30

/-- The vector-control bit of an MSI-X table entry that masks it; an unlisted entry is masked (R501, log entry 10). -/
def msixDefault : BitVec 128 := BitVec.ofNat 128 (2 ^ 96)

/-- A message on a vector of a function (R502): sent, or made pending where the vector is masked. Nothing is sent while
the link is down (R508). -/
def State.sendMsix (s : State) (fn vector : Nat) : State :=
  let k := 4096 * fn + vector
  let e := mapGet msixDefault s.pcie.msix k
  if s.pcie.linkUp = false then s
  else if e.getLsbD 96 then
    (if s.pcie.pba.contains k then s else { s with pcie := { s.pcie with pba := k :: s.pcie.pba } })
  else s.emit (.msix fn vector e)

/-- The offsets of the latch, its times, PEND and CLEAR of the scope of an event. -/
def latchReg (e : Event) : Nat := if srcHall e.src then Reg.HAL_FLT_LATCH e.hall else Reg.FLT_DEV_LATCH
def pendReg (e : Event) : Nat := if srcHall e.src then Reg.HAL_FLT_PEND e.hall else Reg.FLT_DEV_PEND

/-- Whether ERR_N is driven low (R560, R562). -/
def State.errNLow (s : State) : Bool :=
  if ¬ bit (s.reg Reg.FLT_STATUS) 31 then true
  else
    let pin := s.fld Reg.FLT_CTRL 10 8
    pin ≤ 4 && ((s.reg Reg.FLT_DEV_PEND) >>> pin != 0
      || (List.range 16).any fun h => (s.reg (Reg.HAL_FLT_PEND h)) >>> pin != 0)

/-- The window count and start of the event's instance, and the class that R552 computes, with ESCALATED. -/
def State.classify (s : State) (e : Event) : (Nat × Nat) × Nat × Bool :=
  let inst := if srcHall e.src then e.hall else 0
  let cfg := s.reg (Reg.FLT_SRC_CFG e.src)
  let t := s.monoNs
  let w := mapGet (0, 0) s.srcWin (16 * e.src + inst)
  let w' := if w.1 = 0 ∨ t - w.2 ≥ 1000000 * bits cfg 21 0 then (1, t) else (min (w.1 + 1) 256, w.2)
  let base := srcBase e.src
  if bit cfg 31 ∧ w'.1 > bits cfg 29 22 ∧ base < 3 then (w', 3, true) else (w', base, false)

/-- The context that the latch shows: the tagged one, or the one that held the hall (R555, R557). -/
def State.latchCtx (s : State) (e : Event) : Nat :=
  match e.ctx with
  | some c => if srcTagged e.src then c else 0
  | none => if srcHall e.src ∧ ¬ srcTagged e.src then ((s.hall e.hall).holder).getD 0 else 0

/-- The latch entry of an event of class `cls` (Table 16.8). -/
def State.latchWord (s : State) (e : Event) (cls : Nat) (esc : Bool) : Nat :=
  2 ^ 63 + 2 ^ 61 * b2n (srcTagged e.src && e.ctx.isSome) + 2 ^ 60 * b2n (s.clk.disc ≠ .unset) + 2 ^ 57 * cls
  + 2 ^ 56 * b2n esc + 2 ^ 49 * e.src + 2 ^ 37 * (s.latchCtx e % 4096) + 2 ^ 29 * (e.inst % 256) + 2 ^ 22 * (e.x % 128)
  + 2 ^ 16 * (e.y % 64) + e.code % 65536

/-- The latch, the pending bit and the event message of an unmasked event (R556 to R562). -/
def State.noteEvent (s : State) (e : Event) (cls : Nat) (esc : Bool) : State :=
  let ctrl := s.reg Reg.FLT_CTRL
  let lr := latchReg e
  let s := if cls < bits ctrl 2 0 ∨ 4 < bits ctrl 2 0 then s
    else if bit (s.reg lr) 63 then s.setFld lr 62 62 1
    else
      let unset := s.clk.disc = .unset
      let s1 := s.setReg lr (s.latchWord e cls esc)
      let s1 := s1.setReg (lr + 8) (if unset then 0 else s.timeSec)
      let s1 := s1.setReg (lr + 16) (if unset then 0 else s.timeNsf)
      s1.setReg (lr + 24) (if unset then 0 else s.frame)
  let was := bit (s.reg (pendReg e)) cls
  let s := s.setFld (pendReg e) cls cls 1
  let irq := bits ctrl 18 16
  if was ∨ cls < irq ∨ 4 < irq then s else s.sendMsix 0 (s.fld Reg.HST_EVT_VECTOR 10 0)

/-- The slot that serves a core is marked for retirement (R587). -/
def State.markSlotOf (s : State) (x y : Nat) : State :=
  let h := hallOf x y
  let j := galleryOf x y % 10
  s.markSlot h (27 * j + (s.hall h).slotOf j (posOf x y))

/-- A SEVERE event fails the replay of a hall; the first one counts (R582). -/
def Hall.failReplay (h : Hall) (src code : Nat) : Hall :=
  { h with replay := h.replay.map fun r => { r with failed := r.failed.or (some (src, code)) } }

/-- What follows from a SEVERE event of a tagged source that names a context (Table 16.4, R555, R582). -/
def State.severeTagged (s : State) (e : Event) (c : Nat) : State :=
  let st := (s.ctx c).state
  if st = .free ∨ st = .faulted ∨ st = .detached then s
  else
    let replays := (List.range 16).filter fun h => match (s.hall h).replay with
      | some r => r.ctx == c
      | none => false
    if replays.isEmpty then
      s.onCtx c fun x => { x with fault := x.fault.or (some (s.serial, e.src, e.code)) }
    else s.each replays fun s h => s.onHall h (·.failReplay e.src e.code)

/-- What follows from a SEVERE event of an untagged source of hall scope (Table 16.4, R572, R582, R587). A recovery
that `now` says begins at the landing in progress has no later snapshot to wait for (R74, R77). -/
def State.severeUntagged (s : State) (e : Event) (now : Bool) (first : Nat) : State :=
  let s := if 0x29 ≤ e.src ∧ e.src ≤ 0x2F then s.markSlotOf e.x e.y else s
  let c := e.cause s.frame first
  if s.inStep e.hall then s
  else s.onHall e.hall fun h =>
    if h.replay.isSome then h.failReplay e.src e.code
    else { h with due := h.due.or (some (c, if now then 0 else s.serial)) }

/-- An event of a fault source (R551 to R562). The security events of boot start no device reset (R604). `now` marks the events whose recovery begins at the landing that raised
them; `first` is the first frame of the cause (R575). -/
def State.raiseAt (s : State) (e : Event) (now : Bool) (first : Nat) : State :=
  if srcHall e.src ∧ s.inStep e.hall ∧ e.src ∉ [0x13, 0x14, 0x15, 0x24, 0x25] then s
  else
    let inst := if srcHall e.src then e.hall else 0
    let (w, cls, esc) := s.classify e
    let s := s.count (Reg.FLT_SRC_COUNT e.src inst) 1
    let s := { s with srcWin := mapSet (0, 0) s.srcWin (16 * e.src + inst) w }
    let s := if bit (s.reg (Reg.FLT_SRC_CFG e.src)) 30 then s else s.noteEvent e cls esc
    if cls = 4 then
      (if e.src = 0x54 ∨ e.src = 0x55 then s else s.startDeviceReset (e.cause s.frame s.frame))
    else if cls = 3 then
      if srcTagged e.src then
        let s := if srcHall e.src then s.onHall e.hall (·.failReplay e.src e.code) else s
        match e.ctx with
        | some c => s.severeTagged e c
        | none => s
      else if srcHall e.src then s.severeUntagged e now first
      else s
    else s

/-- An event whose recovery, if any, waits for the next snapshot. -/
def State.raise (s : State) (e : Event) : State := s.raiseAt e false s.frame

end Sys2Proof.Machine
end

