-- ==== Sys2Proof/Machine/Mem.lean ====
section
/-! DEFINITION. The HBM address map, the Page Ownership Table and its caches, the access checks, the far regulator and the
ECC of the three tiers (09). -/
namespace Sys2Proof.Machine

/-! ### Addresses (R304 to R306) -/

/-- The pseudo-channel of a physical address. -/
def channelOf (a : Nat) : Nat := 16 * bits a 39 36 + (bits a 11 8 ^^^ bits a 19 16)
/-- The byte of a physical address within its channel. -/
def localOf (a : Nat) : Nat := bits a 35 12 * 256 + bits a 7 0
/-- The physical address of a byte of a channel. -/
def addrOf (ch l : Nat) : Nat :=
  let hi := 4096 * (l / 256) + l % 256
  2 ^ 36 * (ch / 16) + hi + ((ch % 16) ^^^ bits hi 19 16) * 256

/-- Whether a page lies in the reserved area of its region (Table 9.2). -/
def reservedPage (p : Nat) : Bool := 0xFFE00 ≤ p % 2 ^ 20

/-- Where the ownership entry of a page lies (R315). -/
def entryAddr (p : Nat) : Nat := 2 ^ 36 * (p / 2 ^ 20) + 0xFFE000000 + 8 * (p % 2 ^ 20)

/-- The state of a channel (Table 9.12): 0 DOWN, 1 TRAINING, 2 SERVICE, 3 TEST, 4 FAILED. -/
def State.chState (s : State) (c : Nat) : Nat := s.fld (Reg.MEM_CH_STATUS c) 2 0

/-- Whether a region is online: its bit, which stands only with all 16 channels in SERVICE (R308). -/
def State.regionOnline (s : State) (r : Nat) : Bool := bit (s.reg Reg.MEM_REGION_ONLINE) r

/-- The channel states of a region settled: the region is online when all of its channels are in SERVICE (R308). -/
def State.settleRegion (s : State) (r : Nat) : State :=
  let up := (List.range 16).all fun c => s.chState (16 * r + c) == 2
  s.setFld Reg.MEM_REGION_ONLINE r r (b2n up)

/-! ### Ownership entries (Table 9.4) -/

/-- Whether a page holds a sector that has been found uncorrectable (R322). -/
def State.poisoned (s : State) (p : Nat) : Bool :=
  s.mem.ecc.any fun e => e.uncorrectable && e.found && e.key / 65536 == p

/-- The entry of a page. -/
def State.potEntry (s : State) (p : Nat) : Nat :=
  if reservedPage p then 2 ^ 63 + 0xF * 2 ^ 54
  else match s.mem.pot.find? fun r => r.first ≤ p && p < r.first + r.count with
    | some r => setBits r.entry.toNat 62 62 (b2n (s.poisoned p))
    | none => 0

/-- The context that owns a page, none for a free or a reserved one. -/
def State.pageOwner (s : State) (p : Nat) : Option Nat :=
  let e := s.potEntry p
  let o := bits e 51 40
  if bit e 63 ∧ bits e 57 54 ≠ 15 ∧ o ≠ 0 then some o else none

/-- An entry with the fields that the device writes (Table 9.4). -/
def potWord (wr rd : Bool) (tier kind : Nat) (verified pinned : Bool) (owner epoch range : Nat) : Nat :=
  2 ^ 63 + 2 ^ 61 * b2n wr + 2 ^ 60 * b2n rd + 2 ^ 58 * tier + 2 ^ 54 * kind + 2 ^ 53 * b2n verified
  + 2 ^ 52 * b2n pinned + 2 ^ 40 * owner + 2 ^ 24 * epoch + range

/-- Pages `first` to `first + count - 1` invalidated in all ownership caches (R319). -/
def State.invalidate (s : State) (first count : Nat) : State :=
  { s with mem := { s.mem with
      ownCache := (s.mem.ownCache.map fun e => (e.1, e.2.filter fun p => p < first || first + count ≤ p)).filter
        fun e => e.2 ≠ [] } }

/-- The runs of the table without pages `first` to `first + count - 1`. -/
def cutRuns (runs : List PotRun) (first count : Nat) : List PotRun :=
  runs.flatMap fun r =>
    (if r.first < first then [{ r with count := min r.count (first - r.first) }] else [])
    ++ (if first + count < r.first + r.count then
          let f := max r.first (first + count)
          [{ r with first := f, count := r.first + r.count - f }]
        else [])

/-- A run put into its place by its first page. -/
def insertRun (r : PotRun) : List PotRun → List PotRun
  | [] => [r]
  | x :: l => if r.first < x.first then r :: x :: l else x :: insertRun r l

/-- Entries of a run of pages written, or the pages made free with the entry 0; the caches drop them (R319). -/
def State.setPot (s : State) (first count entry : Nat) : State :=
  let runs := cutRuns s.mem.pot first count
  let runs := if entry = 0 then runs else insertRun ⟨first, count, BitVec.ofNat 64 entry⟩ runs
  ({ s with mem := { s.mem with pot := runs } } : State).invalidate first count

/-- Pages given to an owner: zeroed, and their entries written (R320). -/
def State.givePages (s : State) (first count entry : Nat) : State :=
  (s.zeroRange (65536 * first) (65536 * (first + count))).setPot first count entry

/-- The entries of a run of pages changed by `f`, page runs kept apart. -/
def State.mapPot (s : State) (f : Nat → Nat) (sel : PotRun → Bool) : State :=
  let hit := s.mem.pot.filter sel
  let s' : State := { s with mem := { s.mem with
    pot := s.mem.pot.map fun r => if sel r then { r with entry := BitVec.ofNat 64 (f r.entry.toNat) } else r } }
  s'.each hit fun t r => t.invalidate r.first r.count

/-! ### Requesters and their faults -/

/-- Who makes an access: the core, if one does, the hall whose cache and counters it uses, the context, and REQ of
HAL_MEM_FAULT (Table 9.14). -/
structure Who where
  core : Option Nat
  hall : Nat
  ctx : Option Nat
  req : Nat
deriving DecidableEq, Repr

/-- The SPACE of a memory key, and the byte offset within it. -/
def spaceOf (k : Nat) : Nat := if k < mezBase then 2 else if k < alcoveBase 0 then 1 else 0
def offOf (k : Nat) : Nat :=
  if k < mezBase then k else if k < alcoveBase 0 then k - mezBase else (k - alcoveBase 0) % 0x30000

/-- The hall that a key of the alcoves or the mezzanine belongs to, and the region of an HBM key. -/
def hallOfKey (k : Nat) : Nat :=
  match spaceOf k with
  | 0 => coreHall ((k - alcoveBase 0) / 0x30000)
  | 1 => (k - mezBase) / 0x300000 / 10
  | _ => bits k 39 36

/-- The context that an uncorrectable word is reported for: the holder of the hall, or the page's owner (R325). -/
def State.ueCtx (s : State) (k : Nat) : Option Nat :=
  if spaceOf k = 2 then s.pageOwner (k / 65536) else (s.hall (hallOfKey k)).holder

/-- A fault of an access: recorded in HAL_MEM_FAULT and raised (Tables 9.13, 9.14, 16.1). `tag` is the context that the
event names; `shown` the one that the register shows. -/
def State.memFault (s : State) (w : Who) (code k : Nat) (write : Bool) (shown tag : Option Nat) : State :=
  let x := w.core.elim 0 coreX
  let y := w.core.elim 0 coreY
  let v := 2 ^ 63 + 2 ^ 61 * spaceOf k + 2 ^ 60 * b2n write + 2 ^ 48 * (shown.getD 0) + 2 ^ 41 * x + 2 ^ 35 * y
    + 2 ^ 32 * w.req + code
  let s := s.setReg (Reg.HAL_MEM_FAULT w.hall) v
  let s := s.setReg (Reg.HAL_MEM_FAULT_ADDR w.hall) (offOf k)
  let s := s.setReg (Reg.HAL_MEM_FAULT_FRAME w.hall) s.frame
  let src := if code = Code.MEM_RESERVED then 6 else if code = Code.MEM_OWNER then 7 else if code = Code.MEM_PERM then 8
    else if code = Code.MEM_CHANNEL_DOWN then 9 else 0x0A + w.req
  s.raise { src := src, hall := w.hall, ctx := tag, code := code, x := x, y := y }

/-! ### ECC (R323 to R325) -/

/-- Whether an error lies in `n` bytes from key `k`. -/
def EccError.hits (e : EccError) (k n : Nat) : Bool := e.key < k + n && k < e.key + eccUnit e.key

/-- The errors met by a read, dealt with one by one: a single-bit error is corrected, written back, counted and reported;
an uncorrectable one is counted and, in HBM, poisoned when it is first found (R324). -/
def State.meetErrors (s : State) (k n : Nat) : State :=
  s.each (s.mem.ecc.filter fun e => e.hits k n && !e.found) fun s e =>
    let h := hallOfKey e.key
    let drop : State := { s with mem := { s.mem with ecc := s.mem.ecc.filter (· ≠ e) } }
    let mark : State := { s with mem := { s.mem with
      ecc := s.mem.ecc.map fun x => if x = e then { x with found := true } else x } }
    let base := if e.uncorrectable then mark else drop
    match spaceOf e.key with
    | 0 => if e.uncorrectable then base
      else (base.count (Reg.HAL_ECC_ALC_CE h) 1).raise { src := 0x11, hall := h, code := Code.MEM_CE }
    | 1 => if e.uncorrectable then base
      else (base.count (Reg.HAL_ECC_MEZ_CE h) 1).raise { src := 0x12, hall := h, code := Code.MEM_CE }
    | _ =>
      let ch := channelOf e.key
      let base := base.setReg (Reg.MEM_CH_ERR_ADDR ch) (2 ^ 63 * b2n e.uncorrectable + localOf e.key)
      if e.uncorrectable then
        ((base.count (Reg.MEM_CH_UE ch) 1).count Reg.MEM_UE_TOTAL 1).setReg Reg.MEM_LAST_UE e.key
      else ((base.count (Reg.MEM_CH_CE ch) 1).count Reg.MEM_CE_TOTAL 1).raise
        { src := 0x13, hall := h, code := Code.MEM_CE, inst := ch }

/-- Whether uncorrectable data lies in `n` bytes from key `k`, and where. -/
def State.ueAt (s : State) (k n : Nat) : Option Nat :=
  (s.mem.ecc.find? fun e => e.uncorrectable && e.hits k n).map (·.key)

/-- The errors in words or sectors that scattered writes cover in part (R323). -/
def State.partlyWritten (s : State) (l : List (Nat × Byte)) : List EccError :=
  s.mem.ecc.filter fun e => (l.any fun b => e.key ≤ b.1 && b.1 < e.key + eccUnit e.key)
    && !((List.range (eccUnit e.key)).all fun i => l.any fun b => b.1 == e.key + i)

/-- Scattered bytes written for a requester. A write that covers part of a word or sector reads it first, so that a single-bit error
is corrected; an uncorrectable one stays so and raises MEM_UE (R323, R324, Table 9.6). -/
def State.storeFor (s : State) (w : Who) (l : List (Nat × Byte)) : State :=
  let part := s.partlyWritten l
  let s := (s.each part fun s e => s.meetErrors e.key 1).writeList l
  match part.find? (·.uncorrectable) with
  | some e => s.memFault w Code.MEM_UE e.key true w.ctx (s.ueCtx e.key)
  | none => s

/-- Bytes written from a key of HBM on for a command of the host or by the device itself, as `storeFor` writes them: the fault is shown
in the hall of the region. -/
def State.storeHbm (s : State) (k : Nat) (bs : List Byte) : State :=
  if s.mem.ecc = [] then s.writeBytes k bs
  else s.storeFor ⟨none, bits k 39 36, none, 2⟩ (bs.zipIdx.map fun e => (k + e.2, e.1))

/-! ### Checked accesses (R309, R313, R316 to R322) -/

/-- Whether a page is in a hall's ownership cache (R318). -/
def State.owned (s : State) (h p : Nat) : Bool := (mapGet [] s.mem.ownCache (1024 * h + p % 1024)).contains p

/-- The lookup of a page in a hall's ownership cache counted, and the page the most recently used of its set (R318). -/
def State.ownLookup (s : State) (h p : Nat) : State :=
  let k := 1024 * h + p % 1024
  let set := mapGet [] s.mem.ownCache k
  let s : State := { s with mem := { s.mem with
    ownCache := mapSet [] s.mem.ownCache k ((p :: set.filter (· ≠ p)).take 4) } }
  s.count64 (if set.contains p then Reg.HAL_OWN_HIT h else Reg.HAL_OWN_MISS h) 1

/-- `n` bytes of far traffic of a hall: spent at the regulator, which gains 1,536 B every 7 cycles and holds at most
16,384 B; a request that finds too little waits (R313, log entry 13). -/
def State.farTraffic (s : State) (h n : Nat) : State :=
  let (debt, at_) := mapGet (0, 0) s.mem.far h
  let debt := debt - 1536 * (s.cycles / 7 - at_ / 7) + n
  let gains := ceilDiv (debt - 16384) 1536
  let s := s.count64 (Reg.HAL_FAR_BYTES h) n
  let s := if gains = 0 then s else s.count64 (Reg.HAL_FAR_STALL h) (7 * (s.cycles / 7 + gains) - s.cycles)
  { s with mem := { s.mem with far := mapSet (0, 0) s.mem.far h (debt, s.cycles) } }

/-- The check of R316 on an access to a physical address, but for its last row; `hit` says whether the entry is at
hand. -/
def State.potCheck (s : State) (ctxs : List Nat) (a : Nat) (write hit : Bool) : Option Nat :=
  let p := a / 65536
  let e := s.potEntry p
  if s.chState (channelOf a) ≠ 2 ∨ (hit = false ∧ s.chState (channelOf (entryAddr p)) ≠ 2) then some Code.MEM_CHANNEL_DOWN
  else if bits e 57 54 = 15 then some Code.MEM_RESERVED
  else if ¬ bit e 63 ∨ bits e 51 40 ∉ ctxs then some Code.MEM_OWNER
  else if (if write then ¬ bit e 61 else ¬ bit e 60) then some Code.MEM_PERM
  else none

/-- One access of a hall's requester to `n` bytes of HBM at `a`, of which it needs `parts`: the cache, the check, the regulator, and the
errors that it meets. A narrow write of part of its sector is two narrow accesses (R294). An access to a channel that is not in
SERVICE, or whose entry lies on one, reads no entry (R316, R318). -/
def State.hbmAccess (s : State) (w : Who) (a n : Nat) (parts : List (Nat × Nat)) (write narrow : Bool) : Option Nat × State :=
  let p := a / 65536
  match s.potCheck w.ctx.toList a write (s.owned w.hall p) with
  | some c => (some c, if c = Code.MEM_CHANNEL_DOWN then s else s.ownLookup w.hall p)
  | none =>
    let once (s : State) : State :=
      let s := if bits a 39 36 = w.hall then s else s.farTraffic w.hall n
      if narrow then s.count64 (Reg.HAL_NARROW_COUNT w.hall) 1 else s
    let covered := (List.range n).all fun i => parts.any fun r => r.1 ≤ a + i && a + i < r.1 + r.2
    let s := once (s.ownLookup w.hall p)
    if write then (none, if narrow && !covered then once s else s)
    else
      let s := s.each parts fun s r => s.meetErrors r.1 r.2
      (if parts.any fun r => (s.ueAt r.1 r.2).isSome then some Code.MEM_UE else none, s)

/-- A byte range cut at multiples of `u`. -/
def cutUnits (u : Nat) (r : Nat × Nat) : List (Nat × Nat) :=
  (List.range ((r.1 + r.2 - 1) / u + 1 - r.1 / u)).map fun i =>
    let lo := max r.1 ((r.1 / u + i) * u)
    (lo, min (r.1 + r.2) ((r.1 / u + i + 1) * u) - lo)

/-- The numbers of the aligned blocks of `u` bytes that ranges touch, each once, in the order of the first touch. -/
def touched (u : Nat) (l : List (Nat × Nat)) : List Nat := (l.flatMap fun r => (cutUnits u r).map fun e => e.1 / u).eraseDups

/-- The parts of ranges in the bytes from `lo` up to `hi`. -/
def within (l : List (Nat × Nat)) (lo hi : Nat) : List (Nat × Nat) :=
  l.filterMap fun r => if max r.1 lo < min (r.1 + r.2) hi then some (max r.1 lo, min (r.1 + r.2) hi - max r.1 lo) else none

/-- Ascending numbers as runs of consecutive ones: the first and how many. -/
def runsOf (l : List Nat) : List (Nat × Nat) :=
  (l.foldl (fun (acc : List (Nat × Nat)) b => match acc with
    | (a, n) :: rest => if a + n = b then (a, n + 1) :: rest else (b, 1) :: acc
    | [] => [(b, 1)]) []).reverse

/-- The accesses that HBM ranges cost: one per 32-byte sector on the narrow path, else one per run of contiguous 64-byte bursts
within a 256-byte unit (R294, R305, R310). -/
def hbmRuns (narrow : Bool) (l : List (Nat × Nat)) : List (Nat × Nat) :=
  if narrow then (touched 32 l).map fun b => (32 * b, 32)
  else
    let bursts := touched 64 l
    (bursts.map (· / 4)).eraseDups.flatMap fun u =>
      (runsOf (((List.range 4).map (4 * u + ·)).filter bursts.contains)).map fun r => (64 * r.1, 64 * r.2)

/-- An access of a requester to bytes of the mezzanine, whose hall its context must hold, or of an alcove. -/
def State.sramAccess (s : State) (w : Who) (k n : Nat) (write : Bool) : Option Nat × State :=
  if spaceOf k = 1 ∧ ((s.hall (hallOfKey k)).holder ≠ w.ctx ∨ w.ctx = none) then (some Code.MEM_OWNER, s)
  else if write then (none, s)
  else
    let s := s.meetErrors k n
    (if (s.ueAt k n).isSome then some Code.MEM_UE else none, s)

/-- The accesses of a requester to byte ranges, in order: the first failing one decides the code and the key
(R316, R322). -/
def State.accessAll (s : State) (w : Who) (ranges : List (Nat × Nat)) (write narrow : Bool) :
    Option (Nat × Nat) × State :=
  let l := ranges.filter (·.2 ≠ 0)
  let hbm := l.filter fun r => r.1 < mezBase
  let first (acc : Option (Nat × Nat) × State) (k : Nat) (f : State → Option Nat × State) : Option (Nat × Nat) × State :=
    if acc.1.isSome then acc else let (c, s) := f acc.2; (c.map ((·, k)), s)
  let sram := (l.filter fun r => mezBase ≤ r.1).foldl (fun acc r => first acc r.1 fun s => s.sramAccess w r.1 r.2 write) (none, s)
  (hbmRuns narrow hbm).foldl (fun acc r =>
    let parts := within hbm r.1 (r.1 + r.2)
    first acc ((parts.head?.map (·.1)).getD r.1) fun s => s.hbmAccess w r.1 r.2 parts write narrow) sram

end Sys2Proof.Machine
end

