-- ==== Sys2Proof/Machine/Num.lean ====
section
/-! DEFINITION. The number formats and their conversions (03), the exact and rounded arithmetic of the arrays and the
vector unit (05 R154 to R158, 07 R244), the fixed functions (R686) and the generator of stochastic rounding (R183). -/
namespace Sys2Proof.Machine

/-! ### Values -/

/-- The value of an encoding: NaN, an infinity, or exactly `±m * 2^e`; a zero keeps its sign. -/
inductive FVal where
  | nan
  | inf (neg : Bool)
  | fin (neg : Bool) (m : Nat) (e : Int)
deriving DecidableEq, Repr

/-- What the special encodings of a floating-point format are (Table 3.3): infinities and NaNs at the top exponent, one
NaN of each sign, or none. -/
inductive Specials where
  | ieee | nanOnly | none
deriving DecidableEq, Repr

/-- A floating-point layout (Table 3.2): the widths of its fields, its bias, its largest finite encoding, and the NaN
it produces. -/
structure FloatFmt where
  ebits : Nat
  mbits : Nat
  bias : Nat
  maxEnc : Nat
  specials : Specials
  nanOut : Nat
deriving DecidableEq, Repr

def fp32 : FloatFmt := ⟨8, 23, 127, 0x7F7FFFFF, .ieee, 0x7FC00000⟩
def bf16 : FloatFmt := ⟨8, 7, 127, 0x7F7F, .ieee, 0x7FC0⟩
def e4m3 : FloatFmt := ⟨4, 3, 7, 0x7E, .nanOnly, 0x7F⟩
def e5m2 : FloatFmt := ⟨5, 2, 15, 0x7B, .ieee, 0x7E⟩
def e3m2 : FloatFmt := ⟨3, 2, 3, 0x1F, .none, 0⟩
def e2m3 : FloatFmt := ⟨2, 3, 1, 0x1F, .none, 0⟩
def e2m1 : FloatFmt := ⟨2, 1, 1, 0x7, .none, 0⟩

/-- The width of a format's encodings. -/
def FloatFmt.width (f : FloatFmt) : Nat := 1 + f.ebits + f.mbits

/-- The value of an encoding (R85, Table 3.3). -/
def FloatFmt.decode (f : FloatFmt) (n : Nat) : FVal :=
  let neg := bit n (f.ebits + f.mbits)
  let e := bits n (f.ebits + f.mbits - 1) f.mbits
  let m := n % 2 ^ f.mbits
  let top := 2 ^ f.ebits - 1
  if f.specials = .ieee ∧ e = top then (if m = 0 then .inf neg else .nan)
  else if f.specials = .nanOnly ∧ e = top ∧ m = 2 ^ f.mbits - 1 then .nan
  else if e = 0 then .fin neg m (1 - (f.bias : Int) - f.mbits)
  else .fin neg (2 ^ f.mbits + m) ((e : Int) - f.bias - f.mbits)

/-- An E8M0 scale as a power of two, none for 0xFF (R85). -/
def scaleExp (s : Nat) : Option Int := if s = 0xFF then none else some ((s : Int) - 127)

/-! ### Rounding (R90 to R99) -/

/-- The rounding modes of Table 3.4 but for SR. -/
inductive Rnd where
  | rne | rto | rtz
deriving DecidableEq, Repr

/-- The exponent of the leading bit of `m * 2^e`, for m not 0. -/
def topExp (m : Nat) (e : Int) : Int := (m.log2 : Int) + e

/-- The magnitude `m * 2^e` rounded on the grid of a format, subnormals included and the exponent unbounded above, as
a magnitude encoding that continues past the largest one (R92, R97). -/
def FloatFmt.roundMag (f : FloatFmt) (mode : Rnd) (m : Nat) (e : Int) : Nat :=
  if m = 0 then 0
  else
    let emin : Int := 1 - (f.bias : Int)
    let te := max (topExp m e) emin
    let sh := te - f.mbits - e
    let base := (te - emin).toNat * 2 ^ f.mbits
    if sh ≤ 0 then base + m * 2 ^ (-sh).toNat
    else
      let d := 2 ^ sh.toNat
      let q := base + m / d
      let r := m % d
      match mode with
      | .rtz => q
      | .rto => if r = 0 then q else q / 2 * 2 + 1
      | .rne => if d < 2 * r ∨ (2 * r = d ∧ q % 2 = 1) then q + 1 else q

/-- The encoding with a sign of a magnitude encoding. -/
def FloatFmt.signed (f : FloatFmt) (neg : Bool) (mag : Nat) : Nat := b2n neg * 2 ^ (f.ebits + f.mbits) + mag

/-- The encoding of an infinity of a format that has one. -/
def FloatFmt.infEnc (f : FloatFmt) (neg : Bool) : Nat := f.signed neg ((2 ^ f.ebits - 1) * 2 ^ f.mbits)

/-- What a finite overflow gives (R98, R99): `nanOpt` is the option NAN of E4M3. -/
def FloatFmt.overflow (f : FloatFmt) (mode : Rnd) (nanOpt neg : Bool) : Nat :=
  match f.specials with
  | .nanOnly => if nanOpt then f.nanOut else f.signed neg f.maxEnc
  | .ieee => if mode = .rne then f.infEnc neg else f.signed neg f.maxEnc
  | .none => f.signed neg f.maxEnc

/-- A value rounded once to a format, and whether the conversion is one that sets the overflow flag where the format is
one of R100 (Table 3.5). -/
def FloatFmt.encode (f : FloatFmt) (mode : Rnd) (nanOpt : Bool) : FVal → Nat × Bool
  | .nan => (f.nanOut, true)
  | .inf neg => match f.specials with
    | .ieee => (f.infEnc neg, true)
    | .nanOnly => (if nanOpt then f.nanOut else f.signed neg f.maxEnc, true)
    | .none => (f.signed neg f.maxEnc, true)
  | .fin neg m e =>
    let c := f.roundMag mode m e
    if c ≤ f.maxEnc then (f.signed neg c, false) else (f.overflow mode nanOpt neg, true)

/-- A value rounded to the nearest FP32 and to the nearest BF16 (R157). -/
def rne32 (v : FVal) : Nat := (fp32.encode .rne false v).1
def rne16 (v : FVal) : Nat := (bf16.encode .rne false v).1

/-! ### Exact arithmetic on values -/

def FVal.isNan : FVal → Bool
  | .nan => true
  | _ => false
def FVal.isInf : FVal → Bool
  | .inf _ => true
  | _ => false
def FVal.isFin : FVal → Bool
  | .fin _ _ _ => true
  | _ => false
def FVal.isZero : FVal → Bool
  | .fin _ 0 _ => true
  | _ => false
/-- Whether a value is negative: strictly, or an infinity. -/
def FVal.isNeg : FVal → Bool
  | .inf n => n
  | .fin n m _ => n && m ≠ 0
  | .nan => false

def FVal.negate : FVal → FVal
  | .nan => .nan
  | .inf n => .inf (!n)
  | .fin n m e => .fin (!n) m e

def FVal.zero : FVal := .fin false 0 0
def FVal.one : FVal := .fin false 1 0

/-- The integer that a finite value is in units of 2^e0, for e0 at most its exponent. -/
def scaled (neg : Bool) (m : Nat) (e e0 : Int) : Int :=
  let v : Int := m * 2 ^ (e - e0).toNat
  if neg then -v else v

/-- The exact sum. An exact zero from operands of unlike sign is +0 (rounding by RNE), and -0 only from two -0. -/
def FVal.add : FVal → FVal → FVal
  | .nan, _ => .nan
  | _, .nan => .nan
  | .inf a, .inf b => if a = b then .inf a else .nan
  | .inf a, _ => .inf a
  | _, .inf b => .inf b
  | .fin a m e, .fin b n f =>
    if m = 0 ∧ n = 0 then .fin (a && b) 0 0
    else
      let e0 := min e f
      let t := scaled a m e e0 + scaled b n f e0
      .fin (decide (t < 0)) t.natAbs e0

/-- The exact product; infinity times zero is NaN. -/
def FVal.mul : FVal → FVal → FVal
  | .nan, _ => .nan
  | _, .nan => .nan
  | .inf a, .inf b => .inf (a != b)
  | .inf a, .fin b n _ => if n = 0 then .nan else .inf (a != b)
  | .fin a m _, .inf b => if m = 0 then .nan else .inf (a != b)
  | .fin a m e, .fin b n f => .fin (a != b) (m * n) (e + f)

/-- Whether the first value is below the second; false when either is NaN. -/
def FVal.lt : FVal → FVal → Bool
  | .nan, _ => false
  | _, .nan => false
  | .inf a, .inf b => a && !b
  | .inf a, _ => a
  | _, .inf b => !b
  | .fin a m e, .fin b n f => let e0 := min e f; decide (scaled a m e e0 < scaled b n f e0)

/-- The larger and the smaller of two values: NaN when either is, and +0 above -0. -/
def FVal.max (a b : FVal) : FVal :=
  if a.isNan ∨ b.isNan then .nan
  else if a.lt b then b else if b.lt a then a else if a.isZero then (match a with | .fin true _ _ => b | _ => a) else a
def FVal.min (a b : FVal) : FVal :=
  if a.isNan ∨ b.isNan then .nan
  else if a.lt b then a else if b.lt a then b else if a.isZero then (match a with | .fin true _ _ => a | _ => b) else a

/-- A value times 2^k. -/
def FVal.shift (v : FVal) (k : Int) : FVal :=
  match v with
  | .fin n m e => .fin n m (e + k)
  | v => v

/-- The value of an FP32 encoding, and the FP32 value nearest to a value. -/
def f32 (n : Nat) : FVal := fp32.decode n
def toF32 (v : FVal) : FVal := f32 (rne32 v)

/-- The value of an integer. -/
def FVal.ofInt (i : Int) : FVal := .fin (decide (i < 0)) i.natAbs 0

/-- A floating-point value as an integer for INT8 (R102): rounded by RNE or RTZ and clamped; infinities give the ends
and NaN 0. -/
def toInt8 (mode : Rnd) : FVal → Int
  | .nan => 0
  | .inf neg => if neg then -128 else 127
  | .fin neg m e =>
    let a : Nat := if 0 ≤ e then m * 2 ^ e.toNat
      else
        let d := 2 ^ (-e).toNat
        let q := m / d
        let r := m % d
        if mode = .rtz then q else if d < 2 * r ∨ (2 * r = d ∧ q % 2 = 1) then q + 1 else q
    let i : Int := if neg then -(a : Int) else a
    max (-128) (min 127 i)

/-- An integer result of `w` bits under SAT or WRAP (R103). -/
def satWrap (sat : Bool) (w : Nat) (i : Int) : Int :=
  let half : Int := (2 ^ (w - 1) : Nat)
  if sat then max (-half) (min (half - 1) i) else sext w (wrapTo w i)

/-! ### Stochastic rounding (R182 to R186) -/

/-- FP32 to BF16 with a 16-bit random value (R182). -/
def srBf16 (x r : Nat) : Nat :=
  match f32 x with
  | .nan => 0x7FC0
  | .inf _ => x / 65536
  | .fin _ _ _ => bits x 31 31 * 0x8000 + ((x % 0x80000000 + r % 65536) % 2 ^ 32) / 65536

/-- One round of the generator, with its key (R183). -/
def philoxRound (k0 k1 : Nat) (c : Nat × Nat × Nat × Nat) : Nat × Nat × Nat × Nat :=
  let (c0, c1, c2, c3) := c
  let p0 := 0xD2511F53 * c0
  let p1 := 0xCD9E8D57 * c2
  ((p1 / 2 ^ 32) ^^^ c1 ^^^ k0, p1 % 2 ^ 32, (p0 / 2 ^ 32) ^^^ c3 ^^^ k1, p0 % 2 ^ 32)

/-- The generator: ten rounds, the key stepped before each but the first (R183). -/
def philox (k0 k1 : Nat) (c : Nat × Nat × Nat × Nat) : Nat × Nat × Nat × Nat :=
  (List.range 10).foldl (fun c i =>
    philoxRound ((k0 + i * 0x9E3779B9) % 2 ^ 32) ((k1 + i * 0xBB67AE85) % 2 ^ 32) c) c

/-- The random value of lane `lane` of the group that starts at draw index `draw` (Table 5.5, R185). `id` is bits [15:0]
of c2: the core, the queue and the unit. -/
def srDraw (seed frame id draw lane : Nat) : Nat :=
  let d := draw + lane / 8
  let (w0, w1, w2, w3) := philox (seed % 2 ^ 32) (seed / 2 ^ 32 % 2 ^ 32)
    (d % 2 ^ 32, d / 2 ^ 32 % 2 ^ 32, (frame % 65536) * 65536 + id, frame / 65536 % 2 ^ 32)
  let w := match lane % 8 / 2 with | 0 => w0 | 1 => w1 | 2 => w2 | _ => w3
  if lane % 2 = 0 then w % 65536 else w / 65536

/-! ### MX blocks (R107 to R112) -/

/-- The element format and emax of an MX format code (Tables 3.1 and 3.3). -/
def mxElement (code : Nat) : Option (FloatFmt × Int) :=
  match code with
  | 0x08 => some (e4m3, 8) | 0x09 => some (e5m2, 15) | 0x0A => some (e3m2, 4) | 0x0B => some (e2m3, 2)
  | 0x0C => some (e2m1, 2) | _ => none

/-- One block quantised (R111): the element encodings, the scale, and whether the overflow flag is set. The values are
BF16 values (R96). -/
def quantise (f : FloatFmt) (emax : Int) (mode : Rnd) (vs : List FVal) : List Nat × Nat × Bool :=
  if vs.any fun v => !v.isFin then (vs.map fun _ => 0, 0xFF, true)
  else
    let tops := vs.filterMap fun v => match v with
      | .fin _ m e => if m = 0 then none else some (topExp m e)
      | _ => none
    match tops with
    | [] => (vs.map fun v => match v with | .fin n _ _ => f.signed n 0 | _ => 0, 0, false)
    | t :: ts =>
      let se := max (ts.foldl max t - emax) (-127)
      let enc := vs.map fun v => match v.shift (-se) with
        | .fin n m e => f.signed n (min (f.roundMag mode m e) f.maxEnc)
        | _ => 0
      (enc, (se + 127).toNat, false)

/-! ### Precise real arithmetic for the fixed functions

Numbers `m * 2^e` cut to 160 significant bits: far more than FP32 needs, so that the nearest FP32 value found from one is
the correctly rounded result. -/

/-- A cut real number. -/
structure Re where
  m : Int
  e : Int
deriving DecidableEq, Repr

/-- The number cut to 160 significant bits, toward zero. -/
def Re.cut (a : Re) : Re :=
  let n := a.m.natAbs.log2
  if n < 160 then a
  else
    let k := n - 159
    let q : Int := (a.m.natAbs / 2 ^ k : Nat)
    ⟨if a.m < 0 then -q else q, a.e + k⟩

def Re.ofNat (n : Nat) : Re := ⟨n, 0⟩
def Re.add (a b : Re) : Re :=
  let e0 := min a.e b.e
  if a.m = 0 then b else if b.m = 0 then a
  else if topExp a.m.natAbs a.e > topExp b.m.natAbs b.e + 400 then a
  else if topExp b.m.natAbs b.e > topExp a.m.natAbs a.e + 400 then b
  else Re.cut ⟨a.m * 2 ^ (a.e - e0).toNat + b.m * 2 ^ (b.e - e0).toNat, e0⟩
def Re.neg (a : Re) : Re := ⟨-a.m, a.e⟩
def Re.mul (a b : Re) : Re := Re.cut ⟨a.m * b.m, a.e + b.e⟩
/-- The quotient, for a divisor that is not 0. -/
def Re.div (a b : Re) : Re :=
  let s : Int := if (a.m < 0) = (b.m < 0) then 1 else -1
  Re.cut ⟨s * ((a.m.natAbs * 2 ^ 400 / b.m.natAbs : Nat) : Int), a.e - b.e - 400⟩

/-- Square root of a number, bit by bit from bit `k`. -/
def isqrtFrom : Nat → Nat → Nat → Nat
  | 0, n, r => if (r + 1) * (r + 1) ≤ n then r + 1 else r
  | k + 1, n, r => let r' := r + 2 ^ (k + 1); isqrtFrom k n (if r' * r' ≤ n then r' else r)
def isqrt (n : Nat) : Nat := isqrtFrom (n.log2 / 2 + 1) n 0

/-- The square root of a number that is not negative. -/
def Re.sqrt (a : Re) : Re :=
  let k : Int := 400 + (a.e % 2)
  ⟨isqrt (a.m.natAbs * 2 ^ k.toNat), (a.e - k) / 2⟩

/-- ln 2 to 200 bits. -/
def ln2 : Re :=
  ⟨1113844574712631719546256151097547306333272293549090750737802, -200⟩

/-- The sum of x^k / k! for k from 1 to 48: e^x - 1 for |x| at most 1. -/
def expSeries (x : Re) : Re :=
  ((List.range 48).foldl (fun (acc : Re × Re) k =>
    let t := (acc.2.mul x).div (Re.ofNat (k + 1))
    (acc.1.add t, t)) (⟨0, 0⟩, Re.ofNat 1)).1

/-- The nearest integer to x / ln 2. -/
def expSplit (x : Re) : Int :=
  let q := x.div ln2
  if q.e < 0 then (2 * q.m + 2 ^ (-q.e).toNat) / (2 * 2 ^ (-q.e).toNat) else q.m * 2 ^ q.e.toNat

/-- e^x - 1, for |x| at most 200. -/
def reExpm1 (x : Re) : Re :=
  if x.m = 0 then x
  else if topExp x.m.natAbs x.e < -1 then expSeries x
  else
    let n := expSplit x
    let r := x.add ((ln2.mul ⟨n, 0⟩).neg)
    let y := (expSeries r).add (Re.ofNat 1)
    Re.add ⟨y.m, y.e + n⟩ ⟨-1, 0⟩

/-- e^x, for |x| at most 200. -/
def reExp (x : Re) : Re :=
  let n := expSplit x
  let r := x.add ((ln2.mul ⟨n, 0⟩).neg)
  let y := (expSeries r).add (Re.ofNat 1)
  ⟨y.m, y.e + n⟩

/-- ln(1 + u) for u from 0 to 1: 2 atanh(u / (2 + u)). -/
def reLog1p (u : Re) : Re :=
  let z := u.div (u.add (Re.ofNat 2))
  let z2 := z.mul z
  let s := ((List.range 64).foldl (fun (acc : Re × Re) k =>
    (acc.1.add (acc.2.div (Re.ofNat (2 * k + 1))), acc.2.mul z2)) (⟨0, 0⟩, z)).1
  ⟨s.m, s.e + 1⟩

/-- tanh x, for |x| at most 100. -/
def reTanh (x : Re) : Re :=
  let t := reExpm1 ⟨x.m, x.e + 1⟩
  t.div (t.add (Re.ofNat 2))

/-- 1 / (1 + e^-x), for |x| at most 200. -/
def reSigmoid (x : Re) : Re := (Re.ofNat 1).div ((reExp x.neg).add (Re.ofNat 1))

def Re.toVal (a : Re) : FVal := .fin (decide (a.m < 0)) a.m.natAbs a.e
/-- The finite value as a real number; 0 for the others. -/
def FVal.toRe : FVal → Re
  | .fin n m e => ⟨if n then -(m : Int) else m, e⟩
  | _ => ⟨0, 0⟩
/-- x held within -lim and lim. -/
def Re.clampTo (x : Re) (lim : Nat) : Re :=
  if (FVal.ofInt lim).lt x.toVal then Re.ofNat lim
  else if x.toVal.lt (FVal.ofInt (-(lim : Int))) then (Re.ofNat lim).neg else x

/-- An FP32 encoding moved by units in the last place within its sign. -/
def moveUlps (x : Nat) (d : Int) : Nat :=
  let mag := (((x % 0x80000000 : Nat) : Int) + max (-2) (min 2 d)).toNat
  x / 0x80000000 * 0x80000000 + min mag 0x7F800000

/-- The functions of R686. -/
inductive FixedFn where
  | exp | rsqrt | recip | relu | lrelu | sigmoid | tanh | softplus | elu | sqrelu | gelu | silu
deriving DecidableEq, Repr

def FixedFn.code : FixedFn → Nat
  | .exp => 0x10 | .rsqrt => 0x11 | .recip => 0x12 | .relu => 0x18 | .lrelu => 0x19 | .sigmoid => 0x1A | .tanh => 0x1B
  | .softplus => 0x1C | .elu => 0x1D | .sqrelu => 0x1E | .gelu => 0x1F | .silu => 0x20

/-- sqrt(2 / pi) and 0.044715, of GELU (R378), to 180 bits and as a quotient. -/
def geluC : Re := ⟨1222754531556129328561791655883466095345734060614493408, -180⟩
def geluK : Re := (Re.ofNat 44715).div (Re.ofNat 1000000)

/-- The exact result for a finite input, as a value; `al` is the parameter of LRELU and ELU. -/
def FixedFn.exact (f : FixedFn) (al x : FVal) : FVal :=
  let r := x.toRe
  let c := r.clampTo 200
  match f with
  | .exp => (reExp c).toVal
  | .rsqrt => if r.m = 0 then .inf (match x with | .fin n _ _ => n | _ => false)
      else if x.isNeg then .nan else ((Re.ofNat 1).div r.sqrt).toVal
  | .recip => if r.m = 0 then .inf (match x with | .fin n _ _ => n | _ => false) else ((Re.ofNat 1).div r).toVal
  | .relu => if x.isNeg then .zero else x.max .zero
  | .lrelu => if FVal.zero.lt x then x else al.mul x
  | .sigmoid => (reSigmoid c).toVal
  | .tanh => if r.m = 0 then x else (reTanh (r.clampTo 100)).toVal
  | .softplus =>
    let p := reLog1p (reExp (if x.isNeg then c else c.neg))
    (if x.isNeg then p else r.add p).toVal
  | .elu => if FVal.zero.lt x then x else if r.m = 0 then al.mul x else al.mul (reExpm1 c).toVal
  | .sqrelu => if x.isNeg then .zero else x.mul x
  | .gelu =>
    if r.m = 0 then x
    else
      let big := (r.clampTo 100)
      let u := geluC.mul (big.add (geluK.mul (big.mul (big.mul big))))
      let t := reExpm1 (((⟨u.m, u.e + 1⟩ : Re).neg).clampTo 200)
      -- 0.5 x (1 + tanh u) = x / (1 + e^(-2u))
      (r.div (t.add (Re.ofNat 2))).toVal
  | .silu => if r.m = 0 then x else (r.mul (reSigmoid c)).toVal

/-- The result for an infinite input: the IEEE 754 result of the exact function (R686). LRELU at -infinity is the product of
its parameter and the infinity, NaN for a parameter of 0 (log entry 12). -/
def FixedFn.atInf (f : FixedFn) (al : FVal) (neg : Bool) : FVal :=
  match f with
  | .exp => if neg then .zero else .inf false
  | .rsqrt => if neg then .nan else .zero
  | .recip => .fin neg 0 0
  | .relu => if neg then .zero else .inf false
  | .lrelu => if neg then al.mul (.inf true) else .inf false
  | .sigmoid => if neg then .zero else .one
  | .tanh => .fin neg 1 0
  | .softplus => if neg then .zero else .inf false
  | .elu => if neg then al.negate else .inf false
  | .sqrelu => if neg then .zero else .inf false
  | .gelu | .silu => if neg then .zero else .inf false

/-- The parameter of a fixed function: IMM for LRELU and ELU, which alone have one (Table 7.4). -/
def FixedFn.param (f : FixedFn) (imm : Nat) : Nat := if f = .lrelu ∨ f = .elu then imm else 0

/-- A fixed function of an FP32 encoding (R686): the correctly rounded result moved by the open error of at most 2 units
in the last place (log entry 4); special inputs and exp(0) are exact. GELU and SILU at -infinity, for which IEEE 754 has no
result (the product is -infinity times 0), are open (log entry 12). -/
def FixedFn.apply (f : FixedFn) (imm x : Nat) : Nat :=
  let al := bf16.decode imm
  match f32 x with
  | .nan => fp32.nanOut
  | .inf neg => if neg = true ∧ (f = .gelu ∨ f = .silu) then (Config.openAtInf f.code).toNat else rne32 (f.atInf al neg)
  | v =>
    match f.exact al v with
    | .nan => fp32.nanOut
    | .inf neg => fp32.infEnc neg
    | y =>
      if f = .exp ∧ v.isZero then 0x3F800000
      else moveUlps (rne32 y) (Config.ulpError (f.code * 65536 + f.param imm) x)

/-- exp of an FP32 encoding, as the output path uses it (R177). -/
def exp32 (x : Nat) : Nat := FixedFn.exp.apply 0 x

/-! ### Derivatives from saved outputs (R376, Table 11.2) -/

/-- f' in terms of the saved output y, exactly, for a VECTOR opcode from 0x28 to 0x2F; `al` is IMM. -/
def doutExact (op : Nat) (al y : FVal) : FVal :=
  let pos := FVal.zero.lt y
  match y with
  | .nan => .nan
  | _ =>
    match op with
    | 0x28 => if pos then .one else .zero
    | 0x29 => if pos then .one else al
    | 0x2A => y.mul (FVal.one.add y.negate)
    | 0x2B => FVal.one.add (y.mul y).negate
    | 0x2C => match y with
      | .inf neg => if neg then .inf true else .one
      | _ => if y.isZero then .zero else ((reExpm1 ((y.toRe.clampTo 200).neg)).neg).toVal
    | 0x2D => if pos then .one else y.add al
    | 0x2E => if pos then (match y with | .fin _ _ _ => ((y.toRe).sqrt.toVal).shift 1 | v => v) else .zero
    | _ => y

/-- b times f', with f' within 2 units in the last place of its FP32 value and one rounding of the product (R376).
`err` is the open error of f' (log entry 4). -/
def doutApply (op imm a b : Nat) (err : Int) : Nat :=
  let d := match doutExact op (bf16.decode imm) (f32 a) with
    | .nan => fp32.nanOut
    | .inf neg => fp32.infEnc neg
    | v => moveUlps (rne32 v) err
  rne32 ((f32 d).mul (f32 b))

/-- What a free order sums a list of FP32 values to, each addition rounded by RNE (R293): `key` gives the place of each
value in the order. -/
def insertByKey (x : Nat × Nat) : List (Nat × Nat) → List (Nat × Nat)
  | [] => [x]
  | y :: r => if x.1 < y.1 then x :: y :: r else y :: insertByKey x r
def sumInOrder (key : Nat → Nat) (xs : List Nat) : Nat :=
  match ((xs.zipIdx.map fun e => (key e.2, e.1)).foldl (fun l x => insertByKey x l) []).map (·.2) with
  | [] => 0
  | x :: r => r.foldl (fun a b => rne32 ((f32 a).add (f32 b))) x

end Sys2Proof.Machine
end

