-- ==== Sys2Proof/Machine/Operands.lean ====
section
/-! DEFINITION. Operand forms: tensor descriptors (08), their validation, the walk of an operand, and the reads and
writes of elements in every format. -/
namespace Sys2Proof.Machine

/-! ### Format codes (Table 3.1) -/

/-- Bits per element, without the scale; none for a code that is not in the table. -/
def fmtBits (c : Nat) : Option Nat :=
  if c ∈ [0x00, 0x05, 0x19] then some 32
  else if c = 0x01 then some 16
  else if c ∈ [0x02, 0x03, 0x04, 0x08, 0x09, 0x18] then some 8
  else if c = 0x0A ∨ c = 0x0B then some 6
  else if c ∈ [0x0C, 0x10, 0x12] then some 4
  else if c = 0x11 ∨ c = 0x13 then some 2
  else none

def isMx (c : Nat) : Bool := 0x08 ≤ c && c ≤ 0x0C
def isTableExp (c : Nat) : Bool := c = 0x10 || c = 0x11
def isGroupExp (c : Nat) : Bool := c = 0x12 || c = 0x13
def isNarrowInt (c : Nat) : Bool := 0x10 ≤ c && c ≤ 0x13
/-- Floating-point element formats that are not MX: FP32, BF16, E4M3, E5M2. -/
def plainFloat (c : Nat) : Option FloatFmt :=
  match c with | 0 => some fp32 | 1 => some bf16 | 2 => some e4m3 | 3 => some e5m2 | _ => none
/-- Elements per packing unit (Table 3.8); 1 for formats of a byte or more. -/
def packUnit (b : Nat) : Nat := if b = 4 then 2 else if b = 6 ∨ b = 2 then 4 else 1

/-! ### Descriptors (R268 to R272) -/

/-- The fields of a descriptor image. -/
structure Desc where
  space : Nat
  access : Nat
  format : Nat
  rank : Nat
  rnd : Nat
  nanOpt : Bool
  expand : Nat
  group : Nat
  idxMode : Nat
  base : Nat
  ext : List Nat
  stride : List Int
  transform : Nat
  perm : List Nat
  blkDim : Nat
  auxBase : Nat
  winO : Nat
  winT : Nat
  step : Nat
  dil : Nat
  pad : Nat
  len : Nat
deriving DecidableEq, Repr

/-- Word `w` of an image. -/
def imgWord (img : BitVec 512) (w : Nat) : Nat := (img.toNat >>> (64 * w)) % 2 ^ 64

/-- The fields of an image (Tables 8.1 to 8.3). -/
def Desc.ofBits (img : BitVec 512) : Desc :=
  let w0 := imgWord img 0
  let w7 := imgWord img 7
  let win := bits w7 63 62 = 2
  { space := bits w0 63 62, access := bits w0 61 60, format := bits w0 59 55, rank := bits w0 54 52
    rnd := bits w0 51 49, nanOpt := bit w0 48, expand := bits w0 47 46, group := bits w0 45 44
    idxMode := bits w0 43 42, base := bits w0 39 0
    ext := (List.range 6).map fun i => bits (imgWord img (i + 1)) 63 40 + 1
    stride := (List.range 6).map fun i => sext 40 (bits (imgWord img (i + 1)) 39 0)
    transform := bits w7 63 62
    perm := (List.range 6).map fun i => if win then i else bits w7 (3 * i + 46) (3 * i + 44)
    blkDim := if win then 0 else bits w7 43 41
    auxBase := if win then 0 else bits w7 39 0
    winO := bits w7 61 59, winT := bits w7 58 56, step := bits w7 55 48 + 1, dil := bits w7 47 40 + 1
    pad := bits w7 39 32, len := bits w7 31 8 + 1 }

def Desc.extent (d : Desc) (i : Nat) : Nat := if i < d.rank then d.ext.getD i 1 else 1
/-- The extent of dimension `i` of the operand: dimension PERM[i] under PERMUTE (R278, R283). -/
def Desc.opExt (d : Desc) (i : Nat) : Nat := d.extent (if d.transform = 1 ∧ i < d.rank then d.perm.getD i i else i)
def Desc.strideOf (d : Desc) (i : Nat) : Int := d.stride.getD i 0
def Desc.bitsPer (d : Desc) : Nat := (fmtBits d.format).getD 8
/-- G of group expansion. -/
def Desc.groupSize (d : Desc) : Nat := 32 * 2 ^ d.group
/-- Whether the format has an auxiliary tensor, and the divisor and record bytes of one that follows a dimension. -/
def Desc.hasAux (d : Desc) : Bool := isMx d.format || isNarrowInt d.format
def Desc.auxDiv (d : Desc) : Nat := if isMx d.format then 32 else d.groupSize
def Desc.auxRec (d : Desc) : Nat := if isMx d.format then 1 else 4
/-- The format that narrow codes expand to. -/
def Desc.expandFmt (d : Desc) : Nat := d.expand

/-- The key at which SPACE begins, for a step of a core. -/
def spaceKey (core space : Nat) : Nat :=
  match space with | 0 => alcoveBase core | 1 => mezBase | _ => 0

/-! ### Ranges (R274, R284) -/

/-- The byte range of the elements, lowest and highest offset. -/
def Desc.range (d : Desc) : Int × Int :=
  let b := d.bitsPer
  let span := (List.range d.rank).foldl (fun (acc : Int × Int) i =>
    if d.transform = 2 ∧ i = d.winT then acc
    else
      let n := if d.transform = 2 ∧ i = d.winO then d.len else d.extent i
      if i = 0 ∧ b < 8 then acc
      else
        let sp := d.strideOf i * ((n - 1 : Nat) : Int) * b / 8
        if sp < 0 then (acc.1 + sp, acc.2) else (acc.1, acc.2 + sp)) ((d.base : Int), (d.base : Int))
  if b < 8 then (span.1, span.2 + ceilDiv (d.extent 0 * b) 8 - 1) else (span.1, span.2 + (b / 8 : Nat) - 1)

/-- The number of bytes of the auxiliary tensor (R272). -/
def Desc.auxBytes (d : Desc) : Nat :=
  if isTableExp d.format then 32
  else if isMx d.format ∨ isGroupExp d.format then
    (List.range d.rank).foldl (fun n i => n * (if i = d.blkDim then d.extent i / d.auxDiv else d.extent i)) d.auxRec
  else 0

def Desc.auxRange (d : Desc) : Int × Int := (d.auxBase, (d.auxBase + d.auxBytes : Nat) - 1)

/-- Whether two ranges share a byte. -/
def rangesMeet (a b : Int × Int) : Bool := a.1 ≤ b.2 && b.1 ≤ a.2

/-- Whether two descriptors overlap (R284). -/
def Desc.overlaps (a b : Desc) : Bool :=
  a.space == b.space && (rangesMeet a.range b.range || (a.hasAux && b.hasAux && rangesMeet a.auxRange b.auxRange))

/-! ### Validation at creation (R273 to R276, R690) -/

/-- Check 1: reserved fields and values, and fields that the format or the transform does not use; of a FORMAT that Table 3.1 does
not have, the format-dependent fields, GROUP among them, are not tested (R690). -/
def descEncodingOk (img : BitVec 512) : Bool :=
  let d := Desc.ofBits img
  let w0 := imgWord img 0
  let w7 := imgWord img 7
  let f := d.format
  d.space ≠ 3 && d.access ≠ 0 && 1 ≤ d.rank && d.rank ≤ 6 && d.transform ≠ 3 && d.idxMode ≠ 3 && bits w0 41 40 = 0
  && ((List.range 6).all fun i => i < d.rank || imgWord img (i + 1) == 0)
  && (if d.transform = 2 then bits w7 7 0 = 0
      else bit w7 40 = false && (d.transform = 1 || bits w7 61 44 == 0))
  && ((fmtBits f).isNone || ((isNarrowInt f || d.expand = 0) && (isGroupExp f || d.group = 0) && d.group ≠ 3
      && (f = 2 || !d.nanOpt)
      && (d.transform = 2 || ((isMx f || isGroupExp f || d.blkDim = 0) && (d.hasAux || d.auxBase = 0)))))

/-- Check 2. Under WINDOW no BLK_DIM stands in word 7, and check 3 refuses such a format. -/
def Desc.formatOk (d : Desc) : Bool :=
  let b := d.bitsPer
  (fmtBits d.format).isSome && d.rnd ≤ 3
  && (d.access < 2 || (match d.rnd with
      | 2 => d.format = 1
      | 1 => (plainFloat d.format).isSome || isMx d.format
      | _ => true))
  && (!isNarrowInt d.format || d.expand ≠ 0)
  && (!(isMx d.format || isGroupExp d.format) || d.transform = 2 || (d.blkDim < d.rank && d.extent d.blkDim % d.auxDiv = 0))
  && (8 ≤ b || (d.extent 0 % packUnit b = 0 && d.strideOf 0 = 1))

/-- Check 3. -/
def Desc.transformOk (d : Desc) : Bool :=
  match d.transform with
  | 0 => true
  | 1 => d.access = 1 && 8 ≤ d.bitsPer
      && ((List.range d.rank).all fun i => ((List.range d.rank).any fun j => d.perm.getD j 9 == i))
      && ((List.range 6).all fun j => j < d.rank || d.perm.getD j 0 == 0)
  | _ => d.access = 1 && d.winO ≠ d.winT && d.winO < d.rank && d.winT < d.rank && d.strideOf d.winT = 0 && !d.hasAux

/-- Check 4. -/
def Desc.alignOk (d : Desc) : Bool :=
  let b := d.bitsPer
  (if 8 ≤ b then d.base % (b / 8) = 0
   else (List.range d.rank).all fun i => i == 0 || d.strideOf i % (packUnit b : Int) == 0)
  && (!isGroupExp d.format || d.auxBase % 4 = 0) && (!isTableExp d.format || d.auxBase % 32 = 0)

/-- A list sorted by |stride|, of pairs of |stride| and extent. -/
def insertStride (x : Nat × Nat) : List (Nat × Nat) → List (Nat × Nat)
  | [] => [x]
  | y :: r => if x.1 < y.1 then x :: y :: r else y :: insertStride x r

/-- Whether a descriptor does not alias itself (R275, check 5). -/
def Desc.noAlias (d : Desc) : Bool :=
  let dims := ((List.range d.rank).filter fun i => 1 < d.extent i).map fun i => ((d.strideOf i).natAbs, d.extent i)
  let sorted := dims.foldl (fun l x => insertStride x l) []
  (sorted.foldl (fun (acc : Bool × Nat) x => (acc.1 && acc.2 + 1 ≤ x.1, acc.2 + x.1 * (x.2 - 1))) (true, 0)).1

/-- Whether bytes `lo` to `hi` of a space may be accessed by the context that holds a core's hall (R276, check 6). In
HBM the first range that contains the bytes decides (R277). -/
def State.rangeAllowed (s : State) (core space access : Nat) (r : Int × Int) : Bool :=
  let ctx := s.holderOf core
  0 ≤ r.1 && (match space with
    | 0 => r.2 ≤ 196607
    | 1 => r.2 ≤ 0x1DFFFFFF && ctx.isSome
        && ((List.range 160).all fun g =>
          !rangesMeet r ((0x300000 * g : Nat), (0x300000 * g + 0x2FFFFF : Nat)) || (s.hall (g / 10)).holder == ctx)
    | _ => match ctx with
      | none => false
      | some c =>
        match (s.ctx c).ranges.find? fun a => ((65536 * a.base : Nat) : Int) ≤ r.1
            && r.2 < ((65536 * (a.base + a.pages) : Nat) : Int) with
        | some a => (!bit access 0 || a.rd) && (!bit access 1 || a.wr)
        | none => false)

/-- The ordered checks of an image for a core: the code of the first that fails (R273, Table 8.4). -/
def State.validateDesc (s : State) (core : Nat) (img : BitVec 512) : Option Nat :=
  let d := Desc.ofBits img
  if ¬ descEncodingOk img then some Code.DESC_ENCODING
  else if ¬ d.formatOk then some Code.DESC_FORMAT
  else if ¬ d.transformOk then some Code.DESC_TRANSFORM
  else if ¬ d.alignOk then some Code.DESC_ALIGN
  else if bit d.access 1 ∧ ¬ d.noAlias then some Code.DESC_OVERLAP
  else if ¬ s.rangeAllowed core d.space d.access d.range then some Code.DESC_RANGE
  else if d.hasAux ∧ ¬ s.rangeAllowed core d.space d.access d.auxRange then some Code.DESC_RANGE
  else none

/-! ### Walks and coordinates (R250, R251, R271, R282, R283) -/

/-- The coordinate that each walked dimension takes from r, L0, L1 and L2; dimensions below `k` are the operand. -/
def Desc.walk (d : Desc) (k : Nat) (ix : List Nat) : List Nat :=
  (List.range 6).map fun i => if i < k then 0 else (ix.getD (i - k) 0) % d.extent i

/-- The operand coordinates over `k` dimensions of given extents, dimension 0 fastest. -/
def coords : List Nat → List (List Nat)
  | [] => [[]]
  | n :: rest => (coords rest).flatMap fun c => (List.range n).map (· :: c)

/-- The full coordinate of an operand coordinate and a walk. -/
def fullCoord (walk c : List Nat) : List Nat := c ++ walk.drop c.length

/-- The bit offset of an element within SPACE, none where a window supplies +0. -/
def Desc.bitAt (d : Desc) (c : List Nat) : Option Nat :=
  let pos (f : Nat → Int) : Option Nat :=
    some ((8 * d.base : Nat) + (List.range d.rank).foldl (fun (a : Int) i => a + f i * d.strideOf i) 0 * d.bitsPer).toNat
  if d.transform = 2 then
    let real : Int := (c.getD d.winO 0 * d.step + c.getD d.winT 0 * d.dil : Nat) - d.pad
    if real < 0 ∨ (d.len : Int) ≤ real then none
    else pos fun i => if i = d.winO then real else if i = d.winT then 0 else (c.getD i 0 : Nat)
  else pos fun i => (c.getD i 0 : Nat)

/-- The source coordinate of a destination coordinate under PERMUTE (R283). -/
def Desc.permuted (d : Desc) (c : List Nat) : List Nat :=
  if d.transform = 1 then
    (List.range 6).map fun q => match (List.range 6).find? fun i => i < d.rank && d.perm.getD i 0 == q with
      | some i => c.getD i 0
      | none => 0
  else c

/-- The index of the auxiliary record of an element (R272). -/
def Desc.auxIndex (d : Desc) (c : List Nat) : Nat :=
  ((List.range d.rank).foldl (fun (acc : Nat × Nat) i =>
    let n := if i = d.blkDim then d.extent i / d.auxDiv else d.extent i
    let ci := if i = d.blkDim then c.getD i 0 / d.auxDiv else c.getD i 0
    (acc.1 + ci * acc.2, acc.2 * n)) (0, 1)).1

/-- The key of the auxiliary record of an element. -/
def Desc.auxKey (d : Desc) (core : Nat) (c : List Nat) : Nat :=
  spaceKey core d.space + d.auxBase + d.auxIndex c * d.auxRec

/-! ### Element access -/

/-- The bits of the element at a bit offset of a space. -/
def State.readBits (s : State) (key bitOff b : Nat) : Nat :=
  if b < 8 then (s.natAt (key + bitOff / 8) 2 / 2 ^ (bitOff % 8)) % 2 ^ b else s.natAt (key + bitOff / 8) (b / 8)

/-- The raw encoding of an element, 0 where a window supplies it. -/
def State.rawAt (s : State) (core : Nat) (d : Desc) (c : List Nat) : Nat :=
  match d.bitAt c with
  | some o => s.readBits (spaceKey core d.space) o d.bitsPer
  | none => 0

/-- The bytes that an element lies in. -/
def Desc.elemRange (d : Desc) (core : Nat) (c : List Nat) : List (Nat × Nat) :=
  match d.bitAt c with
  | some o => [(spaceKey core d.space + o / 8, (o % 8 + d.bitsPer + 7) / 8)]
  | none => []

/-- The bytes of the auxiliary record that an element needs. -/
def Desc.auxRangeAt (d : Desc) (core : Nat) (c : List Nat) : List (Nat × Nat) :=
  if isTableExp d.format then [(spaceKey core d.space + d.auxBase, 32)]
  else if d.hasAux then [(d.auxKey core c, d.auxRec)] else []

/-- An expanded narrow code, as an encoding of the expanded format (R114, R117). `nanOpt` is the E4M3 option of the
destination (R101). -/
def State.expandCode (s : State) (core : Nat) (d : Desc) (nanOpt : Bool) (c : List Nat) (q : Nat) : Nat :=
  if isTableExp d.format then
    let e := s.natAt (spaceKey core d.space + d.auxBase + 2 * q) 2
    if d.expand = 1 then e else e % 256
  else
    let r := s.natAt (d.auxKey core c) 4
    let v := f32 (rne32 ((bf16.decode (r % 65536)).mul (FVal.ofInt ((q : Int) - sext 8 (bits r 23 16)))))
    (((plainFloat d.expand).getD bf16).encode .rne nanOpt v).1

/-- The value of an element of a floating-point, MX or narrow format, and of INT8 and INT32 as integers. -/
def State.valAt (s : State) (core : Nat) (d : Desc) (c : List Nat) : FVal :=
  match d.bitAt c with
  | none => .zero
  | some o =>
    let raw := s.readBits (spaceKey core d.space) o d.bitsPer
    match plainFloat d.format with
    | some f => f.decode raw
    | none =>
      if d.format = 4 then FVal.ofInt (sext 8 raw)
      else if d.format = 5 then FVal.ofInt (sext 32 raw)
      else match mxElement d.format with
        | some (f, _) =>
          match scaleExp (s.byte (d.auxKey core c)).toNat with
          | none => .nan
          | some k => (f.decode raw).shift k
        | none =>
          if isNarrowInt d.format then
            ((plainFloat d.expand).getD bf16).decode (s.expandCode core d false c raw)
          else .nan

/-- The bytes that hold an element written at a coordinate: those of its bits, with the neighbours' bits of a packed
byte as `acc` has them, else as memory has them. -/
def State.putBits (s : State) (acc : List (Nat × Byte)) (key bitOff b v : Nat) : List (Nat × Byte) :=
  if 8 ≤ b then acc ++ (leBytes (b / 8) v).zipIdx.map fun e => (key + bitOff / 8 + e.2, e.1)
  else
    let put (acc : List (Nat × Byte)) (k lo w x : Nat) : List (Nat × Byte) :=
      let old := match acc.reverse.find? fun e => e.1 == k with
        | some e => e.2.toNat
        | none => (s.byte k).toNat
      acc.filter (fun e => e.1 ≠ k) ++ [(k, BitVec.ofNat 8 (setBits old (lo + w - 1) lo x))]
    let lo := bitOff % 8
    let k := key + bitOff / 8
    if lo + b ≤ 8 then put acc k lo b v
    else put (put acc k lo (8 - lo) v) (k + 1) 0 (lo + b - 8) (v / 2 ^ (8 - lo))

/-- The bytes that a raw encoding takes at a coordinate of a destination. -/
def State.putElem (s : State) (acc : List (Nat × Byte)) (core : Nat) (d : Desc) (c : List Nat) (v : Nat) :
    List (Nat × Byte) :=
  match d.bitAt c with
  | some o => s.putBits acc (spaceKey core d.space) o d.bitsPer v
  | none => acc

/-! ### Conversions (R104, Table 3.6) -/

/-- Whether Table 3.6 has a path from one code to another, for a source whose EXPAND is `expand`. -/
def pathOk (src dst expand : Nat) : Bool :=
  if src = dst then true
  else match src with
    | 0 => dst ∈ [1, 2, 3, 4] || isMx dst
    | 1 => dst ∈ [0, 2, 3, 4] || isMx dst
    | 2 | 3 => dst ∈ [0, 1, 2, 3]
    | 4 => dst ∈ [0, 1]
    | 5 => dst ∈ [0, 4]
    | _ => if isMx src then dst ∈ [0, 1] else if isNarrowInt src then dst = expand && dst ∈ [1, 2, 3] else false

/-- Whether a conversion narrows, so that a rounding mode applies (R90). -/
def narrows (src dst : Nat) : Bool :=
  src ≠ dst && (match src with
    | 0 => true
    | 1 => dst ≠ 0
    | 2 | 3 => dst = 2 || dst = 3
    | 5 => dst = 0
    | _ => false)

/-- Whether a mode is legal for a narrowing conversion of a pair (Table 3.4). -/
def rndLegal (src dst rnd : Nat) : Bool :=
  match rnd with
  | 0 | 3 => true
  | 1 => (plainFloat dst).isSome || isMx dst
  | 2 => src = 0 && dst = 1
  | _ => false

/-- The rounding mode of a code other than SR. -/
def rndOf (code : Nat) : Rnd := match code with | 1 => .rto | 3 => .rtz | _ => .rne

/-- One value converted to a plain destination format: the encoding and whether it sets the overflow flag (R97 to R103).
`sr` is the random value of a lane under SR; `exactInt` marks an integer source. -/
def convert (dst rnd : Nat) (nanOpt sat : Bool) (sr : Nat) (fromInt32 : Bool) (v : FVal) : Nat × Bool :=
  match plainFloat dst with
  | some f =>
    if rnd = 2 ∧ dst = 1 then (srBf16 (rne32 v) sr, false)
    else
      let r := f.encode (rndOf rnd) nanOpt v
      (r.1, r.2 && (dst = 2 || dst = 3))
  | none =>
    if dst = 4 then
      if fromInt32 then
        (wrapTo 8 (match v with
          | .fin n m e => satWrap sat 8 (if n then -((m * 2 ^ e.toNat : Nat) : Int) else (m * 2 ^ e.toNat : Nat))
          | _ => 0), false)
      else (wrapTo 8 (toInt8 (rndOf rnd) v), false)
    else (0, false)

/-- An FP32 value brought to BF16 by round to odd, on the way to an MX format (R96). -/
def viaBf16 (src : Nat) (v : FVal) : FVal :=
  if src = 0 then bf16.decode (bf16.encode .rto false v).1 else v

end Sys2Proof.Machine
end

