-- ==== Sys2Proof/Machine/Flags.lean ====
section
/-! DEFINITION. The flags and conditions: the comparisons of the control processor (R217), the overflow flag (R179) and the
numeric traps (R189). -/
namespace Sys2Proof.Machine

/-- A comparison of two 32-bit values under COND, none for a reserved one (R217). -/
def cmpCond (cond : Nat) (a b : W32) : Option Bool :=
  match cond with
  | 0 => some (a == b)
  | 1 => some (a != b)
  | 2 => some (a.slt b)
  | 3 => some (a.ult b)
  | 4 => some (!a.slt b)
  | 5 => some (!a.ult b)
  | _ => none

/-- The overflow flag of a core set (R179). -/
def State.setOvf (s : State) (n : Nat) : State := s.onSeq n fun q => { q with ovf := true }

/-- A NaN (false) or an infinity (true) written by an output path: NUMERIC_TRAP when its enable is 1, at most once per
frame and core, counted (R189). -/
def State.numericTrap (s : State) (n : Nat) (nan inf : Bool) : State :=
  let h := coreHall n
  let c := s.reg (Reg.HAL_NUMTRAP_CTRL h)
  if ((nan ∧ bit c 0) ∨ (inf ∧ bit c 1)) ∧ ¬ (s.core n).seq.numTrapRaised then
    let s := s.onSeq n fun q => { q with numTrapRaised := true }
    let s := s.count (Reg.HAL_NUMTRAP_COUNT h) 1
    s.raise { src := 0x17, hall := h, ctx := s.holderOf n, code := Code.NUMERIC_TRAP, x := coreX n, y := coreY n }
  else s

end Sys2Proof.Machine
end

