-- ==== Sys2Proof/Machine/StepTables.lean ====
section
/-! DEFINITION. The format of steps and the validation of tables (07, R235 to R246, R688). -/
namespace Sys2Proof.Machine

/-! ### Fields (Tables 7.1 to 7.6) -/

def stUnit (st : Nat) : Nat := bits st 127 124
def stOp (st : Nat) : Nat := bits st 123 116
def stMask (st : Nat) : Nat := bits st 115 100
/-- The threshold N. -/
def stWaitN (st : Nat) : Nat := bits st 99 97 + 1
def stConsume (st : Nat) : Bool := bit st 96
def stRelEn (st : Nat) : Bool := bit st 95
def stRelEach (st : Nat) : Bool := bit st 94
def stRelTc (st : Nat) : Nat := bits st 93 90
def stRepeat (st : Nat) : Nat := bits st 89 80
/-- The first descriptor fields, in the order of the unit areas from bit 79 down. -/
def stReg (st i : Nat) : Nat := bits st (79 - 6 * i) (74 - 6 * i)
/-- M, N, K, ACC_MODE, the spill interval, ROWSTAT, RND and SAT of an ARRAY step. -/
def stM (st : Nat) : Nat := bits st 49 38 + 1
def stN (st : Nat) : Nat := bits st 37 30 + 1
def stK (st : Nat) : Nat := bits st 29 17 + 1
def stAcc (st : Nat) : Nat := bits st 16 14
def stInterval (st : Nat) : Nat := 256 * (bits st 13 6 + 1)
def stRowstat (st : Nat) : Nat := bits st 5 4
/-- The operand rank of a step (R245, R251). -/
def stRank (st : Nat) : Nat :=
  match stUnit st with | 2 => bits st 55 53 | 3 => bits st 61 59 | _ => 2
/-- The RND and SAT fields of a step of the ARRAY, VECTOR or MOVER unit. -/
def stRnd (st : Nat) : Nat :=
  match stUnit st with | 1 => bits st 3 1 | 2 => bits st 52 50 | 3 => bits st 58 56 | _ => 0
def stSat (st : Nat) : Bool := match stUnit st with | 1 => bit st 0 | 2 => bit st 49 | _ => false
def stImm (st : Nat) : Nat := bits st 48 33
/-- DEVICE, X, Y and RTC of a MESH or SIGNAL step. -/
def stDevice (st : Nat) : Nat := bits st 67 52
def stX (st : Nat) : Nat := bits st 51 45
def stY (st : Nat) : Nat := bits st 44 39
def stRtc (st : Nat) : Nat := bits st 38 35
/-- COUNT of a LOOP: passes - 1. -/
def stCount (st : Nat) : Nat := bits st 79 64

def stIsFrameEnd (st : Nat) : Bool := stUnit st = 6 && stOp st = 1
def stIsBranch (st : Nat) : Bool := stUnit st = 6 && stOp st = 2
def stIsLoop (st : Nat) : Bool := stUnit st = 6 && stOp st = 3
def stIsEndloop (st : Nat) : Bool := stUnit st = 6 && stOp st = 4
def stIsWait (st : Nat) : Bool := stUnit st = 5 && stOp st = 1
def stIsSignal (st : Nat) : Bool := stUnit st = 5 && stOp st = 2

/-- Whether an opcode is listed for a unit (Tables 7.2 and 7.4). -/
def opListed (unit op : Nat) : Bool :=
  match unit with
  | 1 => op = 1
  | 2 => (1 ≤ op && op ≤ 0x0A) || (0x10 ≤ op && op ≤ 0x12) || (0x18 ≤ op && op ≤ 0x20) || (0x28 ≤ op && op ≤ 0x31)
      || (0x38 ≤ op && op ≤ 0x3C)
  | 3 => 1 ≤ op && op ≤ 3
  | 4 | 5 => op = 1 || op = 2
  | 6 => 1 ≤ op && op ≤ 4
  | _ => false

/-- Order 1: unit, opcode and reserved fields (R240 to R242, R245). -/
def stEncodingOk (st : Nat) : Bool :=
  opListed (stUnit st) (stOp st) &&
  match stUnit st with
  | 1 => true
  | 2 => bits st 32 0 = 0
  | 3 => bits st 55 0 = 0
  | 4 => bits st 34 0 = 0 && stX st ≤ 79 && stY st ≤ 49
  | 5 => stRepeat st = 0 && (if stOp st = 1 then bits st 79 0 = 0
      else bits st 79 68 = 0 && bits st 34 0 = 0 && stX st ≤ 79 && stY st ≤ 49)
  | _ => stMask st = 0 && !stConsume st && !stRelEn st && stRepeat st = 0
      && (if stOp st = 3 then bits st 63 0 = 0 else bits st 79 0 = 0)

/-- Order 2: the rules of R246 that step `i` of `n` breaks, with `depth` loops open before it (R688). -/
def stStructureOk (n i depth st : Nat) : Bool :=
  (stIsFrameEnd st → i + 1 = n ∧ depth = 0)
  && (i + 1 = n → stIsFrameEnd st)
  && (stIsBranch st → i + 2 = n ∧ depth = 0)
  && (stIsLoop st → depth < 3)
  && (stIsEndloop st → 0 < depth)
  && ((stUnit st = 2 ∨ stUnit st = 3) → 1 ≤ stRank st ∧ stRank st ≤ 6)

/-! ### Descriptors of a step -/

/-- A descriptor register that a step samples, and whether the step reads and writes through it. -/
structure Use where
  reg : Nat
  reads : Bool
  writes : Bool
deriving DecidableEq, Repr

/-- Which of its sources a, b, c a VECTOR opcode reads (R687). -/
def vecReads (op : Nat) : Bool × Bool × Bool :=
  if op = 6 then (true, true, true)
  else if op = 9 ∨ op = 0x0A then (false, false, false)
  else if op = 7 ∨ op = 8 ∨ (0x10 ≤ op ∧ op ≤ 0x20) then (true, false, false)
  else if op = 0x30 then (true, false, true)
  else (true, true, false)

/-- The registers that a step samples. A wide buffer is read when it is held before the step's first merge, or after a
spill within the step (R166, R167). -/
def stUses (st : Nat) : List Use :=
  match stUnit st with
  | 1 =>
    let acc := stAcc st
    [⟨stReg st 0, true, false⟩, ⟨stReg st 1, true, false⟩, ⟨stReg st 2, false, acc = 0 || 3 ≤ acc⟩]
    ++ (if acc = 0 then [] else [⟨stReg st 3, acc = 2 || acc = 3 || stInterval st < stK st, true⟩])
    ++ (if stRowstat st = 0 then [] else [⟨stReg st 4, stRowstat st = 3, true⟩])
  | 2 =>
    let (a, b, c) := vecReads (stOp st)
    [⟨stReg st 0, false, true⟩]
    ++ (if a then [⟨stReg st 1, true, false⟩] else [])
    ++ (if b then [⟨stReg st 2, true, false⟩] else [])
    ++ (if c then [⟨stReg st 3, true, false⟩] else if stOp st = 0x31 then [⟨stReg st 3, false, true⟩] else [])
  | 3 => [⟨stReg st 0, false, true⟩, ⟨stReg st 1, true, false⟩]
    ++ (if stOp st = 1 then [] else [⟨stReg st 2, true, false⟩])
  | 4 => [⟨stReg st 0, true, false⟩]
  | _ => []

/-- The operand class of an activation or weight descriptor (Table 4.2): 1 BF16, 2 FP8, 3 INT8, 4 MX. INT4 and INT2 weights in the
alcove, which R123 has expanded by the mover, are taken, and expanded as they are read (DESIGN CHOICE, log entry 111). -/
def opClass (d : Desc) (weight : Bool) : Option Nat :=
  if d.format = 1 then some 1
  else if d.format = 2 ∨ d.format = 3 then some 2
  else if d.format = 4 then some 3
  else if 0x0A ≤ d.format ∧ d.format ≤ 0x0C then some 4
  else if weight ∧ isNarrowInt d.format then (if d.expand = 1 then some 1 else some 2)
  else none

/-- Kt of an operand class (Table 4.1). -/
def classKt (c : Nat) : Nat := match c with | 1 => 16 | 4 => 64 | _ => 32

/-- The rounding mode of a step for a destination (R90). -/
def stMode (st : Nat) (dd : Desc) : Nat := if stRnd st = 7 then dd.rnd else stRnd st

/-- Whether a step may name its rounding mode for a conversion (R90): INHERIT, or a mode that Table 3.4 allows for the pair. A mode
that is legal for narrowings to the destination is accepted, and ignored, for an exact conversion to it, of which the manual does
not speak (DESIGN CHOICE, log entry 111). -/
def stModeOk (st src : Nat) (dd : Desc) : Bool := stRnd st = 7 || rndLegal src dd.format (stRnd st)

/-- Whether a step's conversion to a destination is stochastic: SR from FP32 to BF16 (R91, R182). -/
def stDraws (st src : Nat) (dd : Desc) : Bool := stMode st dd = 2 && src = 0 && dd.format = 1

/-- Whether a buffer lies in the alcove of the core or in its gallery's mezzanine slice (R165, R176, R354). -/
def localTo (core : Nat) (d : Desc) : Bool :=
  let g : Int := coreGallery core
  match d.space with
  | 0 => true
  | 1 => 0x300000 * g ≤ d.range.1 && d.range.2 < 0x300000 * (g + 1)
  | _ => false

/-- Order 5 of an ARRAY step: classes, destination format and mode, MX destination (R121, R160, R90, R689). An MX operand whose
BLK_DIM is not its K dimension is not refused, for no rule refuses it, and takes its scales along its own BLK_DIM (DESIGN CHOICE,
log entry 111). -/
def arrayFormatOk (st : Nat) (a w dd : Option Desc) : Bool :=
  let ca := a.map (opClass · false)
  let cw := w.map (opClass · true)
  let cls := (ca.getD none).or (cw.getD none)
  ca ≠ some none && cw ≠ some none
  && (match ca, cw with | some x, some y => x == y | _, _ => true)
  && (match dd with
    | none => true
    | some d =>
      (match cls with
      | none => true
      | some 3 => d.format = 0 || d.format = 4 || d.format = 5
      | some _ => pathOk 0 d.format 0)
      && (match cls with
        | none => true
        | some c => stModeOk st (if c = 3 then 5 else 0) d)
      && (!isMx d.format || (d.blkDim = 0 && stN st % 32 = 0)))

/-- Orders 6 to 8 of an ARRAY step. -/
def arrayShape (core st : Nat) (a w dd dx ds : Option Desc) : Option Nat :=
  let m := stM st
  let n := stN st
  let k := stK st
  let cls := (a.bind (opClass · false)).or (w.bind (opClass · true))
  let small (d : Option Desc) (e0 e1 : Nat) : Bool := d.any fun d => d.opExt 0 < e0 || d.opExt 1 < e1
  let movedPerm (d : Option Desc) : Bool := d.any fun d => d.transform = 1
    && (List.range d.rank).any fun i => 2 ≤ i && d.perm.getD i i ≠ i
  if 5 ≤ stAcc st ∨ (stRowstat st ≠ 0 ∧ (stAcc st = 1 ∨ stAcc st = 2 ∨ cls = some 3)) then some Code.ACC_MODE_INVALID
  else if small a k m ∨ small w n k ∨ small dd n m ∨ movedPerm a ∨ movedPerm w then some Code.STEP_SHAPE
  else if cls = some 4 ∧ k % 32 ≠ 0 then some Code.STEP_SHAPE
  else if w.any fun d => isGroupExp d.format && k % d.groupSize ≠ 0 then some Code.STEP_SHAPE
  else if dx.any fun d => (cls.any fun c => d.format ≠ if c = 3 then 5 else 0) || d.extent 0 ≠ 2 * n || d.extent 1 ≠ m then
    some Code.WIDE_SHAPE
  else if dx.any fun d => !localTo core d then some Code.WIDE_PLACEMENT
  else if ds.any fun d => d.format ≠ 0 || d.extent 0 ≠ 2 * m || !localTo core d then some Code.ROWSTAT_SHAPE
  else none

/-- Whether a format can be widened to FP32 by a floating-point opcode (R244, Table 3.6, log entry 14). -/
def toFp32Ok (f : Nat) : Bool := f = 0 || pathOk f 0 0

/-- Order 5 of a VECTOR step (R90, R104, R244, R293). An integer opcode takes and gives INT8 and INT32 (log entry 15). -/
def vectorFormatOk (st : Nat) (dd a b c : Option Desc) : Bool :=
  let op := stOp st
  let intOk (d : Option Desc) : Bool := d.all fun d => d.format = 4 || d.format = 5
  let floatIn (d : Option Desc) : Bool := d.all fun d => toFp32Ok d.format
  let out (src : Nat) (ex : Nat) : Bool := dd.all fun d =>
    pathOk src d.format ex && stModeOk st src d
  if 0x38 ≤ op then intOk dd && intOk a && intOk b && dd.all (stModeOk st 5)
  else if op = 0x0A then true
  else if op = 8 then (match a with | some s => out s.format s.expand | none => true)
  else if op = 0x31 then
    (a.all fun d => (plainFloat d.format).isSome || isMx d.format)
    && (b.all fun d => d.format = 5) && (c.all fun d => d.format = 5) && out 0 0
  else floatIn a && floatIn b && (op = 0x30 || floatIn c) && out 0 0

/-- Orders 7 and 8 of a VECTOR step (R687, R293). -/
def vectorShape (core st : Nat) (dd a b c : Option Desc) : Option Nat :=
  let op := stOp st
  let k := stRank st
  let stat (d : Desc) (rows : Option Nat) : Bool :=
    d.format = 0 && localTo core d && (match rows with | some m => d.extent 0 = 2 * m | none => d.extent 0 % 2 = 0)
  if op = 0x31 then
    let ns := ([a, dd].filterMap fun d => d.map (·.opExt 1)) ++ ([b, c].filterMap fun d => d.map (·.opExt 0))
    let differ : Bool := match a, dd with | some x, some y => x.opExt 0 != y.opExt 0 | _, _ => false
    let unlike : Bool := match ns with | x :: r => r.any (· != x) | [] => false
    if differ || unlike then some Code.STEP_SHAPE else none
  else
    let srcs := if op = 0x30 then [a, b] else [a, b, c]
    let lowRank := (dd :: srcs).any fun d => d.any fun d => d.rank < k
    let differs := srcs.any fun x => match x, dd with
      | some x, some y => (List.range k).any fun i => x.opExt i ≠ y.opExt i
      | _, _ => false
    let moved := srcs.any fun x => x.any fun x => x.transform = 1
      && (List.range x.rank).any fun i => k ≤ i && x.perm.getD i i ≠ i
    let blk := dd.any fun d => isMx d.format && k ≤ d.blkDim && op ≠ 0x0A
      && (op ≠ 8 || a.all fun x => x.format ≠ d.format)
    if lowRank ∨ differs ∨ moved ∨ blk then some Code.STEP_SHAPE
    else if op = 0x0A then (if dd.any fun d => !stat d none then some Code.ROWSTAT_SHAPE else none)
    else if op = 0x30 then
      (match c with
      | some d =>
        let rows := if k = 1 then some 1 else dd.map (·.extent 1)
        if (rows.isSome && !stat d rows) || (rows.isNone && !stat d none) then some Code.ROWSTAT_SHAPE else none
      | none => none)
    else none

/-- The stored dimension that dimension `i` of an operand reads (R283). -/
def Desc.stored (d : Desc) (i : Nat) : Nat := if d.transform = 1 ∧ i < d.rank then d.perm.getD i i else i

/-- The bytes that an iteration reads through a descriptor, for operand dimensions of given extents: those of its elements, and those
of the auxiliary records that they need (R286). -/
def Desc.sourceBytes (d : Desc) (exts : List Nat) : Nat :=
  let records := exts.zipIdx.foldl (fun n e => n * (if d.stored e.2 = d.blkDim then ceilDiv e.1 d.auxDiv else e.1)) d.auxRec
  ceilDiv (exts.foldl (· * ·) 1 * d.bitsPer) 8 + (if isTableExp d.format then 32 else if d.hasAux then records else 0)

/-- The elements of the operand of rank `k`. -/
def Desc.operandCount (d : Desc) (k : Nat) : Nat := (List.range k).foldl (fun n i => n * d.opExt i) 1

/-- Whether a descriptor permutes no dimension at or above operand rank `k` (R283). -/
def Desc.permBelow (d : Desc) (k : Nat) : Bool := d.transform ≠ 1 || (List.range d.rank).all fun i => i < k || d.perm.getD i i == i

/-- Order 5 of a MOVER step (R280, R281, R289). -/
def moverFormatOk (st : Nat) (dd ds dx : Option Desc) : Bool :=
  (match ds, dd with
  | some s, some d => pathOk s.format d.format s.expand
      && stModeOk st s.format d
  | _, _ => true)
  && dx.all fun x => x.format = 5

/-- Order 7 of a MOVER step (R278, R281, R283, R288). -/
def moverShapeOk (st : Nat) (dd ds dx : Option Desc) : Bool :=
  let op := stOp st
  let k := stRank st
  (dd.all fun d => k ≤ d.rank) && (ds.all fun d => k ≤ d.rank)
  && (ds.all (·.permBelow k)) && (dx.all (·.permBelow 1))
  && (match ds, dd with
    | some s, some d => !isMx d.format || s.format = d.format || d.blkDim < k
    | _, _ => true)
  && (if op = 1 then
      match ds, dd with
      | some s, some d => (List.range k).all fun i => d.extent i == s.opExt i
      | _, _ => true
    else
      let ix := if op = 2 then ds else dd
      let other := if op = 2 then dd else ds
      (dx.all fun x => x.extent 0 ≤ 4096 && other.all fun o => x.extent 0 ≤ o.opExt (k - 1))
      && (ix.all fun i => !(k = 1 && i.bitsPer < 8) && !((isMx i.format || isGroupExp i.format) && i.blkDim = i.stored (k - 1)))
      && (match ix, other with
        | some i, some o => (List.range (k - 1)).all fun j => i.opExt j == o.opExt j
        | _, _ => true))

/-- Order 9 of a MOVER step (R284 to R286). -/
def moverOverlapOk (st : Nat) (dd ds dx : Option Desc) : Bool :=
  let op := stOp st
  let k := stRank st
  match dd with
  | none => true
  | some d =>
    let n := (dx.map (·.extent 0)).getD 1
    let s1 := match ds with
      | some s => if s.overlaps d then
          s.sourceBytes ((List.range k).map fun i => if op = 2 ∧ i + 1 = k then n else s.opExt i) else 0
      | none => 0
    let s2 := match dx with | some x => if x.overlaps d then x.sourceBytes [n] else 0 | none => 0
    (ds.all fun s => !(op = 1 && s.transform ≠ 0 && s.overlaps d)) && s1 + s2 ≤ 32768

/-- Orders 3 to 9 of Table 7.12 on one step of a core: `get` gives the descriptor of a register, none where the check
waits for the issue (R238, R688). -/
def stCheck (core : Nat) (get : Nat → Option Desc) (st : Nat) : Option Nat :=
  let uses := stUses st
  let u := stUnit st
  if uses.any fun x => (get x.reg).any fun d => (x.reads && !bit d.access 0) || (x.writes && !bit d.access 1) then
    some Code.DESC_ACCESS
  else if uses.any fun x => (get x.reg).any fun d => (x.writes || !x.reads) && d.transform ≠ 0 then some Code.DESC_TRANSFORM
  else if (u = 1 ∨ u = 2 ∨ u = 3) ∧ 4 ≤ stRnd st ∧ stRnd st ≤ 6 then some Code.DESC_FORMAT
  else match u with
    | 1 =>
      let a := get (stReg st 0)
      let w := get (stReg st 1)
      let dd := get (stReg st 2)
      let dx := if stAcc st = 0 then none else get (stReg st 3)
      let ds := if stRowstat st = 0 then none else get (stReg st 4)
      if ¬ arrayFormatOk st a w dd then some Code.DESC_FORMAT else arrayShape core st a w dd dx ds
    | 2 =>
      let (ra, rb, rc) := vecReads (stOp st)
      let pick (r : Bool) (i : Nat) := if r then get (stReg st i) else none
      let dd := get (stReg st 0)
      let a := pick ra 1
      let b := pick rb 2
      let c := pick (rc || stOp st = 0x31) 3
      if ¬ vectorFormatOk st dd a b c then some Code.DESC_FORMAT else vectorShape core st dd a b c
    | 3 =>
      let dd := get (stReg st 0)
      let ds := get (stReg st 1)
      let dx := if stOp st = 1 then none else get (stReg st 2)
      if ¬ moverFormatOk st dd ds dx then some Code.DESC_FORMAT
      else if ¬ moverShapeOk st dd ds dx then some Code.STEP_SHAPE
      else if ¬ moverOverlapOk st dd ds dx then some Code.DESC_OVERLAP
      else none
    | 4 => match get (stReg st 0) with
      | some d => if 0x100000 < ceilDiv (d.operandCount 2 * d.bitsPer) 8 ∨ ¬ d.permBelow 2 then some Code.STEP_SHAPE
          else if ¬ localTo core d then some Code.MSG_SPACE else none
      | none => none
    | _ => none

/-- The descriptor of a register of a core, where it is valid. -/
def State.descOf (s : State) (core r : Nat) : Option Desc :=
  let d := mapGet {} (s.core core).cp.d r
  if d.valid then some (Desc.ofBits d.bits) else none

/-- The first code with which a table is refused (R688). -/
def tableCheck (core : Nat) (get : Nat → Option Desc) (n : Nat) : Nat → Nat → List Nat → Option Nat
  | _, _, [] => none
  | i, depth, st :: rest =>
    if ¬ stEncodingOk st then some Code.STEP_ENCODING
    else if ¬ stStructureOk n i depth st then some Code.STEP_STRUCTURE
    else match stCheck core get st with
      | some c => some c
      | none => tableCheck core get n (i + 1)
          (if stIsLoop st then depth + 1 else if stIsEndloop st then depth - 1 else depth) rest

/-- Whether a destination breaks the rule of a SEND (R229). -/
def State.destBad (s : State) (core dev x y : Nat) : Bool :=
  79 < x || 49 < y || (dev == s.deviceId
    && (match s.holderOf core with | some c => (s.hall (hallOf x y)).holder ≠ some c | none => true))

/-- The checks of a step at issue: the register that is not valid first, then orders 3 to 9, then the destination
(R239, R688). -/
def State.issueCheck (s : State) (core st : Nat) : Option Nat :=
  if (stUses st).any fun u => (s.descOf core u.reg).isNone then some Code.STEP_DESC_UNSET
  else match stCheck core (s.descOf core) st with
    | some c => some c
    | none =>
      if (stUnit st = 4 ∨ stIsSignal st) ∧ s.destBad core (stDevice st) (stX st) (stY st) then some Code.MSG_DEST_INVALID
      else none

/-! ### Patching (R262, Table 7.7) -/

/-- The bits that a field code replaces, for a unit that has the field. -/
def patchBits (field st : Nat) : Option (Nat × Nat) :=
  let u := stUnit st
  match field with
  | 0 => if 1 ≤ u ∧ u ≤ 4 then some (89, 80) else none
  | 1 => if 1 ≤ u ∧ u ≤ 5 then some (115, 96) else none
  | 2 => if 1 ≤ u ∧ u ≤ 5 then some (95, 90) else none
  | 3 => if stIsLoop st then some (79, 64) else none
  | 4 => if u = 1 then some (49, 38) else none
  | 5 => if 1 ≤ u ∧ u ≤ 4 then some (79, 74) else none
  | 6 => if 1 ≤ u ∧ u ≤ 4 then some (73, 68) else none
  | 7 => if u = 4 ∨ stIsSignal st then some (67, 35) else none
  | _ => none

/-- A step with a field replaced, or the code of the refusal. -/
def State.patchStep (s : State) (core field st v : Nat) : Except Nat Nat :=
  match patchBits field st with
  | none => .error Code.STEP_FIELD
  | some (hi, lo) =>
    let st' := setBits st hi lo v
    if ¬ stEncodingOk st' then .error Code.STEP_ENCODING
    else match stCheck core (s.descOf core) st' with
      | some c => .error c
      | none => .ok st'

end Sys2Proof.Machine
end

