-- ==== Sys2Proof/Machine/Units.lean ====
section
/-! DEFINITION. What the units of a core share: tokens, dispatch, the issue of a step and the completion of an iteration
(07, R247 to R261). -/
namespace Sys2Proof.Machine

/-- The four units that have a queue of steps (R247). -/
inductive UnitName where
  | array | vector | mover | mesh
deriving DecidableEq, Repr

def UnitName.code : UnitName → Nat
  | .array => 1 | .vector => 2 | .mover => 3 | .mesh => 4

def queueCode : Queue → Nat
  | .main => 0 | .idle => 1

def Seq.unit (q : Seq) : UnitName → UnitState
  | .array => q.array | .vector => q.vector | .mover => q.mover | .mesh => q.mesh
def Seq.setUnit (q : Seq) (u : UnitName) (x : UnitState) : Seq :=
  match u with
  | .array => { q with array := x }
  | .vector => { q with vector := x }
  | .mover => { q with mover := x }
  | .mesh => { q with mesh := x }
def Seq.queue (q : Seq) : Queue → SeqQueue
  | .main => q.main | .idle => q.idle
def Seq.setQueue (q : Seq) (k : Queue) (x : SeqQueue) : Seq :=
  match k with
  | .main => { q with main := x }
  | .idle => { q with idle := x }
def Seq.onQueue (q : Seq) (k : Queue) (f : SeqQueue → SeqQueue) : Seq := q.setQueue k (f (q.queue k))
def Seq.slot (q : Seq) (i : Nat) : Slot := mapGet {} q.slots i
def Seq.setSlot (q : Seq) (i : Nat) (x : Slot) : Seq := { q with slots := mapSet {} q.slots i x }
def Seq.units (q : Seq) : List UnitState := [q.array, q.vector, q.mover, q.mesh]

/-- The step of a queue in a unit. -/
def UnitState.of (x : UnitState) : Queue → Option Run
  | .main => x.cur | .idle => x.idleCur
def UnitState.setOf (x : UnitState) (k : Queue) (r : Option Run) : UnitState :=
  match k with
  | .main => { x with cur := r }
  | .idle => { x with idleCur := r }
/-- The step whose iteration is in progress. -/
def UnitState.running (x : UnitState) : Option Run :=
  match x.cur, x.idleCur with
  | some r, i => if r.busy then some r else i.filter (·.busy)
  | none, i => i.filter (·.busy)

/-! ### Tokens (R252 to R254) -/

def Seq.tokOf (q : Seq) (n : Nat) : W32 := mapGet 0 q.tok n

/-- Whether the wait of a step holds (R252). -/
def Seq.waitHolds (q : Seq) (st : Nat) : Bool := (bitsOf (stMask st) 16).all fun n => stWaitN st ≤ (q.tokOf n).toNat

/-- What an iteration consumes when it starts (R252). -/
def Seq.consume (q : Seq) (st : Nat) : Seq :=
  if stConsume st then
    (bitsOf (stMask st) 16).foldl (fun q n =>
      { q with tok := mapSet 0 q.tok n (q.tokOf n - BitVec.ofNat 32 (stWaitN st)) }) q
  else q

/-- A release of one token, saturating (R254). -/
def Seq.release (q : Seq) (n : Nat) : Seq :=
  { q with tok := mapSet 0 q.tok n (if q.tokOf n = 0xFFFFFFFF then 0xFFFFFFFF else q.tokOf n + 1) }

/-! ### Dispatch (R247, R257 to R261) -/

/-- The loop indices L0, L1 and L2 of a queue (R250). -/
def SeqQueue.loopIx (k : SeqQueue) (i : Nat) : Nat := ((k.loops[i]?).map (·.pass)).getD 0

/-- Whether a queue waits at step 0 of its slot, which is not READY or has a patch in progress (R226, R228). -/
def Seq.held (q : Seq) (k : Queue) : Bool :=
  match (q.queue k).run with
  | none => false
  | some slot => (q.queue k).pos == 0 && ((q.slot slot).state != .ready || !(q.slot slot).patches.isEmpty)

/-- Whether the main queue is running, so that the idle-fill queue may dispatch (R260). -/
def Seq.mainRuns (q : Seq) : Bool := q.main.run.isSome && !q.main.endDispatched && !q.held .main

/-- The step at which a running queue stands, where it may dispatch it: it does not wait at step 0 of its slot, it is not
stopped, and an idle-fill queue has a running main queue (R226, R228, R260). -/
def Seq.front (q : Seq) (k : Queue) : Option (Nat × Nat) :=
  let x := q.queue k
  match x.run with
  | none => none
  | some slot =>
    let t := q.slot slot
    if x.stopped ∨ x.endDispatched ∨ q.held k ∨ t.state ≠ .ready ∨ (k = .idle ∧ ¬ q.mainRuns) then none
    else (t.steps[x.pos]?).map fun st => (slot, st.toNat)

/-- One step for a unit dispatched, when its unit has room: 4 main-queue entries and 2 idle-fill entries (R247). -/
def Seq.dispatch1 (q : Seq) (k : Queue) : Seq :=
  match q.front k with
  | none => q
  | some (slot, st) =>
    let put (u : UnitName) : Seq :=
      let x := q.unit u
      let room := if k = .main then 4 else 2
      if room ≤ (x.waiting.filter fun e => decide (e.queue = k)).length then q
      else
        let w := q.queue k
        let e : Entry := ⟨k, slot, w.pos, BitVec.ofNat 128 st, w.loopIx 0, w.loopIx 1, w.loopIx 2⟩
        ((q.setUnit u { x with waiting := x.waiting ++ [e] }).setQueue k { w with pos := w.pos + 1 })
    match stUnit st with
    | 1 => put .array
    | 2 => put .vector
    | 3 => put .mover
    | 4 => put .mesh
    | _ => q

/-- The idle-fill queue has reached its own FRAME_END: nothing of it waits or runs any more. -/
def Seq.idleDone (q : Seq) : Seq :=
  if q.idle.endDispatched ∧ (q.units.all fun u => u.idleCur.isNone && !u.waiting.any fun e => decide (e.queue = .idle)) ∧
      (q.signals.all fun g => decide (g.entry.queue = .main)) then
    { q with idle := { q.idle with run := none, endDispatched := false } }
  else q

/-- Every step that can be dispatched: at most 24 entries fit in the four units. -/
def Seq.dispatch (q : Seq) : Seq :=
  ((List.range 24).foldl (fun q _ => (q.dispatch1 .main).dispatch1 .idle) q).idleDone

/-- The sequencer of a core after an event: what can be dispatched is. -/
def State.settle (s : State) (n : Nat) : State := s.onSeq n Seq.dispatch

/-- The queue of a core stops dispatching for the rest of the frame (R239, R298). -/
def State.stopQueue (s : State) (n : Nat) (k : Queue) : State :=
  s.onSeq n fun q => q.onQueue k fun x => { x with stopped := true }

/-- The idle-fill queue stops: what it has dispatched and not started is discarded, and the remaining iterations of what
it has started (R261). -/
def Seq.stopIdle (q : Seq) : Seq :=
  let cut (x : UnitState) : UnitState :=
    { x with
      waiting := x.waiting.filter fun e => decide (e.queue = .main)
      idleCur := (x.idleCur.filter (·.busy)).map ({ · with cut := true })
      overlap := x.overlap.map fun r => if r.entry.queue = .idle then { r with cut := true } else r }
  { q with
    idle := { q.idle with stopped := true }
    array := cut q.array, vector := cut q.vector, mover := cut q.mover, mesh := cut q.mesh }

/-! ### Issue (R239, R248, R249, R260) -/

/-- The queue position word of HAL_SEQ_FAULT and HAL_MOV_FAULT above their lower fields. -/
def faultWord (n : Nat) (e : Entry) : Nat :=
  2 ^ 63 + 2 ^ 62 * queueCode e.queue + 2 ^ 58 * e.slot + 2 ^ 46 * e.idx + 2 ^ 39 * coreX n + 2 ^ 33 * coreY n

/-- A step refused at issue: recorded, its queue stopped, and the step fault raised (R239). -/
def State.refuseStep (s : State) (n : Nat) (e : Entry) (code : Nat) : State :=
  let h := coreHall n
  let s := s.setReg (Reg.HAL_SEQ_FAULT h) (faultWord n e + code)
  let s := s.setReg (Reg.HAL_SEQ_FAULT_FRAME h) s.frame
  let s := s.count (Reg.HAL_SEQ_FAULT_COUNT h) 1
  let s := s.stopQueue n e.queue
  s.raise { src := 4, hall := h, ctx := s.holderOf n, code := code, x := coreX n, y := coreY n }

/-- What an issue samples: the descriptor registers, the seed, the frame number and the epoch (R248, R184, R355). -/
def State.sample (s : State) (n : Nat) (e : Entry) : Run :=
  let c := s.core n
  let st := e.step.toNat
  let d (i : Nat) : BitVec 512 := (mapGet {} c.cp.d (stReg st i)).bits
  { entry := e, d0 := d 0, d1 := d 1, d2 := d 2, d3 := d 3, d4 := d 4, seed := c.cp.srSeed, frame := s.frame
    epoch := (s.holderOf n).elim 0 fun x => (s.ctx x).epoch }

/-- The step that a queue of a unit would start next: the one that it has begun, or the first that waits. -/
def UnitState.candidate (x : UnitState) (k : Queue) : Option (BitVec 128) :=
  match x.of k with
  | some r => some r.entry.step
  | none => (x.waiting.find? fun e => decide (e.queue = k)).map (·.step)

/-- Whether a unit holds a main-queue entry whose wait holds (R260). -/
def Seq.mainReady (q : Seq) (u : UnitName) : Bool :=
  let x := q.unit u
  ((x.cur.filter (!·.busy)).toList.map (·.entry.step) ++ (x.waiting.filter fun e => decide (e.queue = .main)).map (·.step)).any fun st =>
    q.waitHolds st.toNat

/-- Whether the unit may start an iteration of a queue: no iteration is in progress, and for the idle-fill queue the unit holds
no main-queue entry whose wait holds (R260). -/
def Seq.mayStart (q : Seq) (u : UnitName) (k : Queue) : Bool :=
  (q.unit u).running.isNone && (decide (k = .main) || !q.mainReady u)

/-- The places in the order of preference of R253: the main queue before the idle-fill queue, then ARRAY, VECTOR, MOVER, MESH and
SYNC. -/
def unitRank (k : Queue) (u : UnitName) : Nat := 8 * queueCode k + u.code
def syncRank (k : Queue) : Nat := 8 * queueCode k + 5

/-- The iterations and SYNC steps with CONSUME = 1 that could start now, as place and counters (R253). -/
def Seq.claims (q : Seq) : List (Nat × Nat) :=
  [Queue.main, Queue.idle].flatMap fun k =>
    ([UnitName.array, .vector, .mover, .mesh].filterMap fun u =>
      ((q.unit u).candidate k).bind fun stv =>
        let st := stv.toNat
        if stConsume st ∧ q.mayStart u k ∧ q.waitHolds st ∧ (u ≠ .array ∨ q.ramp = .idle) then some (unitRank k u, stMask st) else none)
    ++ match q.front k with
      | some (_, st) =>
        if (stIsWait st ∨ stIsSignal st) ∧ stConsume st ∧ q.waitHolds st then [(syncRank k, stMask st)] else []
      | none => []

/-- Whether one that is preferred could start now and consume from a counter that this one shares: this one evaluates its wait again
in the next cycle (R253). -/
def Seq.outranked (q : Seq) (rank st : Nat) : Bool :=
  stConsume st && q.claims.any fun c => decide (c.1 < rank) && c.2 &&& stMask st != 0

/-- The start of an iteration of the step of queue `k` in unit `u` of core `n` whose opcode is `op`: nothing happens while
the unit cannot start one or its wait does not hold; a new step is checked and sampled; tokens are consumed; `compute`
gives what the iteration will write, or none when it abandons the step. -/
def State.startIter (s : State) (n : Nat) (u : UnitName) (k : Queue) (op : Nat)
    (compute : State → Run → State × Option Run) : State :=
  let q := (s.core n).seq
  let x := q.unit u
  match x.candidate k with
  | none => s
  | some stv =>
    let st := stv.toNat
    if stOp st ≠ op ∨ ¬ q.mayStart u k ∨ ¬ q.waitHolds st ∨ q.outranked (unitRank k u) st then s
    else
      let run (s : State) (r : Run) : State :=
        let s := s.onSeq n (·.consume st)
        match compute s r with
        | (s, some r) => s.onSeq n fun q => q.setUnit u ((q.unit u).setOf k (some { r with busy := true }))
        | (s, none) => s.onSeq n fun q => q.setUnit u ((q.unit u).setOf k none)
      match x.of k with
      | some r => (run s r).settle n
      | none =>
        match x.waiting.find? fun e => decide (e.queue = k) with
        | none => s
        | some e =>
          let s := s.onSeq n fun q => q.setUnit u { q.unit u with waiting := (q.unit u).waiting.erase e }
          match s.issueCheck n st with
          | some c => (s.refuseStep n e c).settle n
          | none => (run s (s.sample n e)).settle n

/-- The loop and repeat indices of an iteration, r, L0, L1 and L2 (R250). -/
def Run.ix (r : Run) : List Nat := [r.iter, r.entry.l0, r.entry.l1, r.entry.l2]
/-- The step word, the descriptor of field `i`, and the index of its last iteration. -/
def Run.st (r : Run) : Nat := r.entry.step.toNat
def Run.desc (r : Run) (i : Nat) : Desc :=
  Desc.ofBits (match i with | 0 => r.d0 | 1 => r.d1 | 2 => r.d2 | 3 => r.d3 | _ => r.d4)
def Run.last (r : Run) : Bool := stRepeat r.st ≤ r.iter

/-! ### Completion (R254) -/

/-- The release that follows the completion of an iteration: after every iteration, or after the last only. -/
def Seq.releaseOf (q : Seq) (r : Run) : Seq :=
  if stRelEn r.st ∧ (stRelEach r.st ∨ r.last) then q.release (stRelTc r.st) else q

/-- The next iteration of a step, as yet without results. -/
def Run.next (r : Run) : Run :=
  { r with
    iter := r.iter + 1, writes := [], wide := [], drains := [], merges := [], accs := [], was := [], overflow := false, nan := false
    inf := false }

/-- The step after its iteration has completed: it goes on to its next iteration, or is done. -/
def Run.after (r : Run) : Option Run :=
  if r.last ∨ r.cut then none else some { r.next with busy := false }

/-- The iteration in progress of a unit completes: its writes become visible, it may set the overflow flag, and it
releases. -/
def State.finishIter (s : State) (n : Nat) (u : UnitName) (w : Who) (r : Run) : State :=
  let s := s.storeFor w r.writes
  let s := if r.overflow then s.setOvf n else s
  s.onSeq n fun q =>
    let q := q.releaseOf r
    let q : Seq := { q with progress := true }
    q.setUnit u ((q.unit u).setOf r.entry.queue r.after)

/-! ### Draws of stochastic rounding (R184 to R186) -/

/-- Bits [15:0] of c2 but for the frame, and the key of the draw index of a unit, a queue and a frame. -/
def srId (n unit : Nat) (k : Queue) : Nat := n * 16 + queueCode k * 8 + unit
def drawKey (frame unit : Nat) (k : Queue) : Nat := frame * 16 + queueCode k * 8 + unit

/-- The draw index of a unit's queue in the frame of a step. -/
def State.drawAt (s : State) (n unit : Nat) (r : Run) : Nat :=
  mapGet 0 (s.core n).seq.draws (drawKey r.frame unit r.entry.queue)

/-- The draw index advanced by calls of the generator; indices of earlier frames of the same unit and queue are done
with. -/
def State.drawMore (s : State) (n unit : Nat) (r : Run) (calls : Nat) : State :=
  if calls = 0 then s
  else s.onSeq n fun q =>
    let k := drawKey r.frame unit r.entry.queue
    let kept := q.draws.filter fun e => ¬ (e.1 % 16 = k % 16 ∧ e.1 < k)
    { q with draws := mapSet 0 kept k ((mapGet 0 q.draws k + calls) % 2 ^ 64) }

/-! ### Results written to a destination operand -/

/-- What an iteration writes, with what its conversions met. -/
structure Written where
  writes : List (Nat × Byte) := []
  overflow : Bool := false
  nan : Bool := false
  inf : Bool := false
deriving DecidableEq, Repr

/-- Whether an encoding of a plain format is a NaN or an infinity. -/
def encNan (fmt v : Nat) : Bool := match plainFloat fmt with | some f => (f.decode v).isNan | none => false
def encInf (fmt v : Nat) : Bool := match plainFloat fmt with | some f => (f.decode v).isInf | none => false

/-- The linear index of a coordinate over extents, dimension 0 fastest. -/
def linear : List Nat → List Nat → Nat
  | n :: ns, c :: cs => c + n * linear ns cs
  | _, _ => 0

/-- A block of 32 elements of an MX destination quantised and written, with its scale (R111). `base` is the coordinate of
its first element. -/
def State.putBlock (s : State) (w : Written) (core : Nat) (dd : Desc) (mode : Rnd) (at_ : Nat → List Nat)
    (vals : List FVal) : Written :=
  match mxElement dd.format with
  | none => w
  | some (f, emax) =>
    let (enc, scale, bad) := quantise f emax mode vals
    let ws := enc.zipIdx.foldl (fun acc e => s.putElem acc core dd (at_ e.2) e.1) w.writes
    let k := dd.auxKey core (at_ 0)
    { w with
      writes := ws.filter (fun e => e.1 ≠ k) ++ [(k, BitVec.ofNat 8 scale)]
      overflow := w.overflow || bad, nan := w.nan || bad }

/-- An operand of extents `exts` written to a destination: every value converted from the format `src` in the mode `rnd`
(R97 to R112). `sr` gives the random value of an element, `free` the value of an element whose result is open. A block of an MX
destination that the operand covers in part (a GATHER along BLK_DIM) is filled with +0 and written whole: the manual has no rule
for it (DESIGN CHOICE, log entry 111). -/
def State.writeOperand (s : State) (core : Nat) (dd : Desc) (walk exts : List Nat) (src rnd : Nat) (sat : Bool)
    (sr : Nat → Nat) (free : List Nat → Option Nat) (val : List Nat → FVal) : Written :=
  let cs := coords exts
  if isMx dd.format then
    (cs.filter fun c => c.getD dd.blkDim 0 % 32 == 0).foldl (fun w c =>
      let at_ (i : Nat) : List Nat := c.set dd.blkDim (c.getD dd.blkDim 0 + i)
      let vals := (List.range 32).map fun i => viaBf16 src (val (at_ i))
      let w' := s.putBlock w core dd (rndOf rnd) (fun i => fullCoord walk (at_ i)) vals
      (List.range 32).foldl (fun w i => match free (at_ i) with
        | some v => { w with writes := s.putElem w.writes core dd (fullCoord walk (at_ i)) (v % 2 ^ dd.bitsPer) }
        | none => w) w') {}
  else
    cs.foldl (fun w c =>
      match free c with
      | some v => { w with writes := s.putElem w.writes core dd (fullCoord walk c) (v % 2 ^ dd.bitsPer) }
      | none =>
        let (v, bad) := convert dd.format rnd dd.nanOpt sat (sr (linear exts c)) (src = 5) (val c)
        { writes := s.putElem w.writes core dd (fullCoord walk c) v, overflow := w.overflow || bad
          nan := w.nan || encNan dd.format v, inf := w.inf || encInf dd.format v }) {}

/-- The byte ranges that an operand of a descriptor lies in, its auxiliary records included. -/
def Desc.ranges (d : Desc) (core : Nat) (cs : List (List Nat)) : List (Nat × Nat) :=
  cs.flatMap fun c => d.elemRange core c ++ d.auxRangeAt core c

/-- What the arrays and the vector unit meet when they read: errors are corrected, and uncorrectable data is reported
(Table 9.6); the keys of the uncorrectable words are returned. -/
def State.readErrors (s : State) (w : Who) (ranges : List (Nat × Nat)) : List Nat × State :=
  let hit (e : EccError) : Bool := ranges.any fun r => e.hits r.1 r.2
  let found := s.mem.ecc.filter hit
  let s := s.each (found.filter fun e => !e.found) fun s e => s.meetErrors e.key 1
  let ue := (found.filter (·.uncorrectable)).map (·.key)
  match ue with
  | [] => ([], s)
  | k :: _ => (ue, s.memFault w Code.MEM_UE k false w.ctx (s.ueCtx k))

/-- Whether an element of a descriptor depends on one of the uncorrectable words. -/
def Desc.tainted (d : Desc) (core : Nat) (ue : List Nat) (c : List Nat) : Bool :=
  (d.elemRange core c ++ d.auxRangeAt core c).any fun r => ue.any fun k => k < r.1 + r.2 && r.1 < k + eccUnit k

end Sys2Proof.Machine
end

