-- ==== Sys2Proof/Machine/ArrayUnit.lean ====
section
/-! DEFINITION. The four arrays of a core: the fold, the compensated sums, the merges into wide buffers, the output path with
row statistics, the schedule's cycle counts, and the activity ramp (04, 05). -/
namespace Sys2Proof.Machine

/-! ### The sums of one output element (R154 to R159, R166, R167) -/

/-- An accumulation in progress: SUM and COMP, the wide pair, and whether the next chunk overwrites the entry. -/
structure Acc where
  s : Nat := 0
  c : Nat := 0
  ws : Nat := 0
  we : Nat := 0
  first : Bool := true
deriving DecidableEq, Repr

/-- The chunk value of a list of exact products (R154 to R156). -/
def chunkValue (ps : List FVal) : Nat :=
  match ps with
  | [] => 0
  | p :: r => rne32 (r.foldl FVal.add p)

/-- The compensated add of a chunk value (R157, R158). -/
def Acc.add (a : Acc) (q : Nat) : Acc :=
  if a.first then
    if (f32 q).isNan then { a with s := fp32.nanOut, c := 0, first := false } else { a with s := q, c := 0, first := false }
  else
    let s := f32 a.s
    let c := bf16.decode a.c
    if s.isNan ∨ c.isNan ∨ (f32 q).isNan then { a with s := fp32.nanOut, c := 0 }
    else
      let y := f32 (rne32 ((f32 q).add c))
      let t := rne32 (s.add y)
      if (f32 t).isFin then { a with s := t, c := rne16 ((s.add y).add (f32 t).negate) } else { a with s := t, c := 0 }

/-- A merge of the entry into its wide pair (R167). -/
def Acc.merge (a : Acc) : Acc :=
  let ws := f32 a.ws
  let s := f32 a.s
  let t := rne32 (ws.add s)
  let e := if (f32 t).isFin then (ws.add s).add (f32 t).negate else .zero
  if (f32 t).isFin then
    { a with ws := t, we := rne32 ((f32 (rne32 ((f32 a.we).add e))).add (bf16.decode a.c)), first := true }
  else { a with ws := t, we := 0, first := true }

/-- Whether a merge follows chunk `kc` of `chunks` in a mode other than DIRECT (R166). -/
def mergeAfter (acc interval kt chunks kc : Nat) : Bool :=
  acc ≠ 0 && (kc + 1 = chunks || kt * (kc + 1) % interval = 0)

/-- The chunks of one output element accumulated (R128, R130): `prod` gives the exact products. -/
def accumulate (acc interval kt k : Nat) (start : Acc) (prod : Nat → FVal) : Acc :=
  let chunks := ceilDiv k kt
  (List.range chunks).foldl (fun a kc =>
    let ps := (List.range (min kt (k - kt * kc))).map fun i => prod (kt * kc + i)
    let a := a.add (chunkValue ps)
    if mergeAfter acc interval kt chunks kc then a.merge else a) start

/-! ### Schedule (R132, R169, R171) -/

/-- The cycles that a merge inserts after a chunk of `m` rows (R169). -/
def mergeCycles (mez : Bool) (m : Nat) : Nat := 6 + (if mez then 50 * m else m)

/-- A chunk of a schedule: its rows, the merge cycles that follow it (0 for none), and whether its block-pass ends with it. -/
structure Chunk where
  m : Nat
  x : Nat
  ends : Bool
deriving DecidableEq, Repr

/-- The cycles of a chunk that is not the last of its schedule (R132, R171). -/
def Chunk.len (c : Chunk) : Nat := max (c.m + c.x) 16

/-- The cycles from the first cycle of the last chunk of a step to the step's completion (R133, R171). -/
def Chunk.tail (c : Chunk) : Nat := c.m + (if c.x = 0 then 6 else c.x)

/-- The chunks of a step in schedule order. -/
def chunkList (st kt : Nat) (mez : Bool) : List Chunk :=
  let chunks := ceilDiv (stK st) kt
  (List.range (ceilDiv (stM st) 256)).flatMap fun mb =>
    let m := min 256 (stM st - 256 * mb)
    (List.range (ceilDiv (stN st) 64)).flatMap fun _ =>
      (List.range chunks).map fun kc =>
        ⟨m, if mergeAfter (stAcc st) (stInterval st) kt chunks kc then mergeCycles mez m else 0, kc + 1 == chunks⟩

/-- Chunks with the schedule cycles in which they begin to stream, the first in cycle `t`. -/
def startsFrom : Nat → List Chunk → List (Nat × Chunk)
  | _, [] => []
  | t, c :: l => (t, c) :: startsFrom (t + c.len) l

/-- The schedule cycle after the completion of a step whose first chunk streams in cycle `t`. -/
def endFrom (t : Nat) (l : List Chunk) : Nat :=
  match (startsFrom t l).getLast? with
  | some (u, c) => u + c.tail
  | none => t

/-- The schedule cycle in which the first chunk of a following step streams when its wait mask is first satisfied in cycle `w`: with its
tiles loaded from the first cycle of the current step's last chunk on, or from `w` on where that is later, and after that
chunk's rows and merge (R135, R136). -/
def joinFrom (t : Nat) (l : List Chunk) (w : Nat) : Nat :=
  match (startsFrom t l).getLast? with
  | some (u, c) => max (max w u + 16) (u + c.m + c.x)
  | none => t

/-- The rows that chunks broadcast in schedule cycles `lo` up to `hi`. -/
def rowsIn (l : List (Nat × Chunk)) (lo hi : Nat) : Nat :=
  l.foldl (fun n e => n + (min hi (e.1 + e.2.m) - max lo e.1)) 0

/-- The schedule cycle after which row `i` of a block-pass is written, when the block-pass's last chunk begins to stream in cycle `t`:
drained in the sixth cycle after its broadcast (R133), or merged in its turn (DESIGN CHOICE, log entry 49). -/
def Chunk.rowDone (c : Chunk) (t i : Nat) : Nat :=
  if c.x = 0 then t + i + 7 else t + c.m + 6 + (c.x - 6) / c.m * (i + 1)

/-- The cycles from the start of a ramp-up until `l` schedule cycles have advanced, with DUTY `d` and a ramp of `r` cycles
(R138, R624). -/
def dutyCycles (d r l : Nat) : Nat :=
  let need := 64 * r * l
  let cap := d * r
  let k := min r (cap / 64)
  let rise := 32 * k * (k + 1)
  if need ≤ rise then ((List.range (k + 1)).find? fun n => need ≤ 32 * n * (n + 1)).getD k
  else k + ceilDiv (need - rise) cap

/-- The level that a ramp-up reaches: RAMP_CYCLES, or the level of an issue-duty limit (R138, R624). -/
def rampTop (d r : Nat) : Nat := min r (d * r / 64)

/-- The schedule cycles that have advanced after `n` cycles of a ramp-up: the inverse of `dutyCycles` (R138). -/
def schedAt (d r n : Nat) : Nat :=
  let k := rampTop d r
  (if n ≤ k then 32 * n * (n + 1) else 32 * k * (k + 1) + (n - k) * (d * r)) / (64 * r)

/-- The ramp-down that begins after `n` cycles of activity, from the level reached (R137, R140). -/
def Ramp.fall (x : Ramp) (n : Nat) : Ramp :=
  match x with
  | .active top duty => .down (min n (rampTop duty top))
  | x => x

/-- Accumulator entries written (R157). -/
def AccMem.put (a : AccMem) (l : List (Nat × Nat)) : AccMem :=
  { a with entries := l.foldl (fun m e => mapSet none m e.1 (some e.2)) a.entries }

/-- An accumulator entry (R152). -/
def AccMem.entry (a : AccMem) (k : Nat) : Nat :=
  match mapGet none a.entries k, a.undef with
  | some v, _ => v
  | none, none => 0
  | none, some f => (Config.freeBits (f + k)).toNat % 2 ^ 48

/-! ### The values of an iteration -/

/-- Row statistics of a row in progress (R177): maximum and sum as FP32 encodings, and whether a NaN or +infinity came. -/
structure Stat where
  mx : Nat
  sm : Nat
  bad : Bool := false
deriving DecidableEq, Repr

/-- The values of one pass of a row taken into its statistics (R177, R178). The manual does not say which zero is the maximum of two,
nor what the maximum of a NaN from the buffer is: the earlier zero, and the produced NaN of R88 (DESIGN CHOICE, log entry 111). -/
def Stat.pass (t : Stat) (vs : List Nat) : Stat :=
  let t := if (f32 t.mx).isNan then { t with mx := fp32.nanOut } else t
  let bad := t.bad || vs.any fun v => (f32 v).isNan || v == 0x7F800000
  if bad then ⟨fp32.nanOut, fp32.nanOut, true⟩
  else
    let pm := vs.foldl (fun m v => if (f32 m).lt (f32 v) then v else m) 0xFF800000
    let nm := if (f32 t.mx).lt (f32 pm) then pm else t.mx
    if nm = 0xFF800000 then t
    else
      let diff (v : Nat) : Nat := rne32 ((f32 v).add (f32 nm).negate)
      let p := vs.foldl (fun (acc : Option Nat) v =>
        let e := exp32 (diff v)
        some (match acc with | none => e | some a => rne32 ((f32 a).add (f32 e)))) none
      let sm := rne32 ((f32 (rne32 ((f32 t.sm).mul (f32 (exp32 (diff t.mx)))))).add (f32 (p.getD 0)))
      ⟨nm, sm, false⟩

/-- The class of an ARRAY step's operands (Table 4.2). -/
def Run.arrayClass (r : Run) : Nat := ((opClass (r.desc 0) false).or (opClass (r.desc 1) true)).getD 1

/-- What the block-passes of an ARRAY iteration have done so far: the state that the next one reads, the writes of each row, the wide
entries of each block-pass, the accumulator entries, the statistics of the m-block's rows, the calls of the generator, and what
the conversions met. -/
structure Folded where
  now : State
  drains : List (List (Nat × Byte)) := []
  merges : List (List (Nat × Byte)) := []
  accs : List (Nat × Nat) := []
  stats : List Stat := []
  calls : Nat := 0
  overflow : Bool := false
  nan : Bool := false
  inf : Bool := false
deriving DecidableEq, Repr

/-- The exact integer value of a product of the INT8 class. -/
def intOf (v : FVal) : Int := match v with
  | .fin ng a e => let t : Int := (a * 2 ^ e.toNat : Nat); if ng then -t else t
  | _ => 0

/-- The K-value from which an entry holds its sum after the last chunk: 0, or the place of the last spill (R130, R159, R166). -/
def lastSpill (acc interval kt k : Nat) : Nat :=
  if acc = 0 then 0 else kt * (ceilDiv k kt - 1) / interval * interval

/-- One block-pass (R128): its entries are accumulated from what memory holds at its start, merged into the wide buffer in a mode
other than DIRECT, and its rows are drained, converted and written, with their statistics after the last n-pass. `open_` says
which outputs are free values (log entry 112). -/
def State.blockPass (n : Nat) (r : Run) (open_ : Nat → Nat → Bool) (statOpen : Nat → Bool) (mb np : Nat) (f : Folded) : Folded :=
  let s := f.now
  let st := r.st
  let (m, nn, k) := (stM st, stN st, stK st)
  let acc := stAcc st
  let (da, dw, dd, dx, ds) := (r.desc 0, r.desc 1, r.desc 2, r.desc 3, r.desc 4)
  let cls := r.arrayClass
  let kt := classKt cls
  let int := cls = 3
  let src (d : Desc) (c : List Nat) : List Nat := d.permuted (fullCoord (d.walk 2 r.ix) c)
  let x (i kk : Nat) : FVal := s.valAt n da (src da [kk, i])
  let w (kk j : Nat) : FVal := s.valAt n dw (src dw [j, kk])
  let xwalk := dx.walk 2 r.ix
  let wideAt (i j b : Nat) : Nat := s.rawAt n dx (fullCoord xwalk [2 * j + b, i])
  let held := acc = 2 ∨ acc = 3
  let entry (i j : Nat) : Acc := accumulate acc (stInterval st) kt k
    (if held then { ws := wideAt i j 0, we := wideAt i j 1 } else {}) fun kk => (x i kk).mul (w kk j)
  let intFrom (b i j : Nat) : Int := (List.range (k - b)).foldl (fun t kk => t + intOf ((x i (b + kk)).mul (w (b + kk) j))) 0
  let intWide (i j : Nat) : Int :=
    let base : Int := if held then sext 64 (wideAt i j 0 + 2 ^ 32 * wideAt i j 1) else 0
    sext 64 (wrapTo 64 (base + intFrom 0 i j))
  let exactOut (i j : Nat) : FVal :=
    if int then FVal.ofInt (if acc = 0 then intFrom 0 i j else intWide i j)
    else
      let a := entry i j
      if acc = 0 then (f32 a.s).add (bf16.decode a.c) else (f32 a.ws).add (f32 a.we)
  let free (i j : Nat) : Option Nat := if open_ i j then some (Config.freeBits (s.free + nn * i + j)).toNat else none
  let rows := (List.range (min 256 (m - 256 * mb))).map (256 * mb + ·)
  let cols := (List.range (min 64 (nn - 64 * np))).map (64 * np + ·)
  let accs := rows.flatMap fun i => (List.range 64).map fun t =>
    let j := 64 * np + t
    (t / 16 * 4096 + i % 256 * 16 + t % 16,
      if nn ≤ j then 0
      else match free i j with
        | some v => v % 2 ^ 48
        | none => if int then wrapTo 48 (intFrom (lastSpill acc (stInterval st) kt k) i j)
          else let a := entry i j; 2 ^ 16 * a.s + a.c)
  let merge := if acc = 0 then [] else rows.flatMap fun i => cols.flatMap fun j =>
    let (lo, hi) := match free i j with
      | some v => (v % 2 ^ 32, v / 2 ^ 32)
      | none => if int then (wrapTo 64 (intWide i j) % 2 ^ 32, wrapTo 64 (intWide i j) / 2 ^ 32)
        else let a := entry i j; (a.ws, a.we)
    s.putElem (s.putElem [] n dx (fullCoord xwalk [2 * j, i]) lo) n dx (fullCoord xwalk [2 * j + 1, i]) hi
  let mode := stMode st dd
  let v32 (i j : Nat) : Nat :=
    if dd.format = 0 then (fp32.encode (rndOf mode) false (exactOut i j)).1 else (fp32.encode .rto false (exactOut i j)).1
  -- an integer destination of the INT8 class takes the exact integer
  let outVal (i j : Nat) : FVal := if int then exactOut i j else f32 (v32 i j)
  let sr := stDraws st (if int then 5 else 0) dd
  let base := s.drawAt n 0 r
  let dwalk := dd.walk 2 r.ix
  let put (s : State) (calls i : Nat) : Written :=
    if isMx dd.format then
      (cols.filter (· % 32 == 0)).foldl (fun w j0 =>
        let w := s.putBlock w n dd (rndOf mode) (fun t => fullCoord dwalk [j0 + t, i])
          ((List.range 32).map fun t => viaBf16 0 (outVal i (j0 + t)))
        (List.range 32).foldl (fun w t => match free i (j0 + t) with
          | some v => { w with writes := s.putElem w.writes n dd (fullCoord dwalk [j0 + t, i]) (v % 2 ^ dd.bitsPer) }
          | none => w) w) {}
    else
      cols.foldl (fun w j =>
        match free i j with
        | some v => { w with writes := s.putElem w.writes n dd (fullCoord dwalk [j, i]) (v % 2 ^ dd.bitsPer) }
        | none =>
          let (v, b) :=
            if int ∧ dd.format = 5 then (wrapTo 32 (satWrap (stSat st) 32 (intOf (outVal i j))), false)
            else convert dd.format mode dd.nanOpt (stSat st)
              (if sr then srDraw r.seed.toNat r.frame (srId n 0 r.entry.queue) (base + calls) (j % 64) else 0)
              int (outVal i j)
          { writes := s.putElem w.writes n dd (fullCoord dwalk [j, i]) v, overflow := w.overflow || b
            nan := w.nan || encNan dd.format v, inf := w.inf || encInf dd.format v }) {}
  let rs := stRowstat st
  let swalk := ds.walk 2 r.ix
  let statAt (i b : Nat) : Nat := s.rawAt n ds (fullCoord swalk [2 * i + b])
  let ended := np + 1 = ceilDiv nn 64
  let writesDest := acc = 0 ∨ 3 ≤ acc
  let f := { f with now := s.writeList merge, merges := f.merges ++ [merge], accs := f.accs ++ accs }
  rows.foldl (fun f i =>
    let w : Written := if writesDest then put f.now f.calls i else {}
    let t := if rs = 0 then ⟨0, 0, false⟩
      else
        let t := if np = 0 then (if rs = 3 then ⟨statAt i 0, statAt i 1, false⟩ else ⟨0xFF800000, 0, false⟩)
          else f.stats.getD (i % 256) ⟨0, 0, false⟩
        t.pass (cols.map (v32 i))
    let dirty := statOpen i || (List.range nn).any (open_ i)
    let mx := if dirty then (Config.freeBits (s.free + nn * m + 2 * i)).toNat % 2 ^ 32 else t.mx
    let sm := if dirty then (Config.freeBits (s.free + nn * m + 2 * i + 1)).toNat % 2 ^ 32 else t.sm
    let stat := if rs = 0 ∨ ¬ ended then []
      else
        let ws := f.now.putElem [] n ds (fullCoord swalk [2 * i]) mx
        if rs = 1 then ws else f.now.putElem ws n ds (fullCoord swalk [2 * i + 1]) sm
    let written := w.writes ++ stat
    { f with
      now := f.now.writeList written, drains := f.drains ++ [written]
      stats := (if np = 0 then f.stats.take (i % 256) else f.stats.set (i % 256) t) ++ (if np = 0 then [t] else [])
      calls := if sr ∧ writesDest then f.calls + 8 else f.calls
      overflow := f.overflow || w.overflow
      nan := f.nan || w.nan || (stat ≠ [] && ((f32 mx).isNan || (rs ≠ 1 && (f32 sm).isNan)))
      inf := f.inf || w.inf }) f

/-- The block-passes of an ARRAY iteration, in the order of R128. `ue` lists uncorrectable words that it read, and `broken` the keys of
wide-buffer bytes that another write has changed: every output that depends on one is a free value (Table 9.6, R172); so is
every output of an operand that does not lie in the alcove, where the arrays never read (R123, log entry 38). -/
def State.arrayValues (s : State) (n : Nat) (r : Run) (ue broken : List Nat) : Folded :=
  let st := r.st
  let (da, dw, dx, ds) := (r.desc 0, r.desc 1, r.desc 3, r.desc 4)
  let src (d : Desc) (c : List Nat) : List Nat := d.permuted (fullCoord (d.walk 2 r.ix) c)
  let held := stAcc st = 2 ∨ stAcc st = 3
  let elsewhere := da.space ≠ 0 ∨ dw.space ≠ 0
  let wide (i j b : Nat) : List Nat := fullCoord (dx.walk 2 r.ix) [2 * j + b, i]
  let open_ (i j : Nat) : Bool := elsewhere || (ue ≠ [] && ((List.range (stK st)).any fun kk =>
      da.tainted n ue (src da [kk, i]) || dw.tainted n ue (src dw [j, kk])))
    || (held && [0, 1].any fun b => (ue ≠ [] && dx.tainted n ue (wide i j b))
      || (broken ≠ [] && (dx.elemRange n (wide i j b)).any fun e => broken.any fun k => e.1 ≤ k && k < e.1 + e.2))
  let statOpen (i : Nat) : Bool := stRowstat st = 3 && ue ≠ [] &&
    [0, 1].any fun b => ds.tainted n ue (fullCoord (ds.walk 2 r.ix) [2 * i + b])
  (List.range (ceilDiv (stM st) 256)).foldl (fun f mb =>
    (List.range (ceilDiv (stN st) 64)).foldl (fun f np => State.blockPass n r open_ statOpen mb np f) f) { now := s }

/-- Every element that an ARRAY iteration reads: operands in the alcove, the wide buffer, and the statistics that MAX_SUM_CONT goes on
with. -/
def Run.arrayReads (r : Run) (n : Nat) : List (Nat × Nat) :=
  let st := r.st
  let at_ (d : Desc) (exts : List Nat) : List (Nat × Nat) :=
    d.ranges n ((coords exts).map fun c => d.permuted (fullCoord (d.walk 2 r.ix) c))
  let operand (d : Desc) (e0 e1 : Nat) : List (Nat × Nat) := if d.space = 0 then at_ d [e0, e1] else []
  operand (r.desc 0) (stK st) (stM st) ++ operand (r.desc 1) (stN st) (stK st)
  ++ (if stAcc st = 2 ∨ stAcc st = 3 then at_ (r.desc 3) [2 * stN st, stM st] else [])
  ++ (if stRowstat st = 3 then at_ (r.desc 4) [2 * stM st] else [])

/-- The chunks of an ARRAY iteration, with the schedule cycles in which they begin to stream, and the schedule cycle after its
completion. -/
def Run.chunks (r : Run) : List Chunk := chunkList r.st (classKt r.arrayClass) ((r.desc 3).space == 1)
def Run.timeline (r : Run) : List (Nat × Chunk) := startsFrom r.first r.chunks
def Run.ends (r : Run) : Nat := endFrom r.first r.chunks

/-- The keys of the bytes in a list that memory no longer holds so. -/
def State.changed (s : State) (l : List (Nat × Byte)) : List Nat := (l.filter fun e => s.byte e.1 != e.2).map (·.1)

/-- An ARRAY iteration computed: what it will write, and the schedule cycle of its first chunk. `prev` is the iteration that it
joins, whose writes it sees. -/
def State.arrayIter (s : State) (n : Nat) (prev : Option Run) (first : Nat) (r : Run) : State × Option Run :=
  let who : Who := ⟨some n, coreHall n, s.holderOf n, 4⟩
  let seen := match prev with
    | some p => (s.writeList p.wide).writeList p.writes
    | none => s
  let (ue, s1) := if s.mem.ecc = [] then ([], s) else s.readErrors who (r.arrayReads n)
  let s1 := if ue = [] then s1 else s1.stopQueue n r.entry.queue
  let own := (prev.map (·.wide)).getD []
  let broken := seen.changed ((s.core n).seq.wideHeld.filter fun e => !own.any fun w => w.1 == e.1)
  let f := seen.arrayValues n r ue broken
  let st := r.st
  let s1 := s1.drawMore n 0 r f.calls
  let s1 := { s1 with free := s1.free + (stM st * stN st + 2 * stM st) }
  let wide := f.merges.flatten
  (s1, some { r with
    busy := true, writes := f.drains.flatten, wide := wide, drains := f.drains, merges := f.merges, accs := f.accs
    was := wide.map fun e => (e.1, seen.byte e.1), overflow := f.overflow, nan := f.nan, inf := f.inf, first := first })

/-- The iteration that may overlap the one in progress: the next of its step, or the first of the step that waits next in
the same queue (R135, R249). -/
def UnitState.overlapCandidate (x : UnitState) (k : Queue) : Option (Sum Run Entry) :=
  match x.running with
  | none => none
  | some p =>
    if p.entry.queue ≠ k ∨ x.overlap.isSome then none
    else if ¬ p.last ∧ ¬ p.cut then some (.inl p.next)
    else (x.waiting.find? fun e => decide (e.queue = k)).map .inr

/-- The schedule cycle in which the wait mask of a joining iteration is first satisfied: an open one of those that may be the present
cycle, before the completion of the iteration in progress (R135, R136, log entry 16). -/
def State.joinCycle (s : State) (n : Nat) (p : Run) : Nat :=
  let q := (s.core n).seq
  let lo := match q.ramp with | .active top duty => schedAt duty top q.cycle | _ => 0
  lo + s.freeValue.toNat % (max 1 (p.ends - lo))

/-- An iteration joins the schedule of the one in progress (R135, R136). -/
def State.joinArray (s : State) (n : Nat) (p r : Run) : State :=
  let first := joinFrom p.first p.chunks (s.joinCycle n p)
  let (s, r') := (s.drawn.onSeq n (·.consume r.st)).arrayIter n (some p) first r
  s.onSeq n fun x => { x with array := { x.array with overlap := r' } }

/-- `ARRAY_MATMUL`: an iteration of the ARRAY step at the head of a queue issues. While the arrays are idle a ramp-up
begins (R138); while an iteration is in progress the next one of the same queue joins its schedule (R135, R136); during a
ramp-down nothing issues (R141). -/
def execArrayMatmul (core : Coord) (q : Queue) (s : State) : Host.Outcome State Fault Refusal :=
  let n := coreNo core
  let sq := (s.core n).seq
  .next <|
    match sq.ramp with
    | .down _ => s
    | .idle =>
      let s' := s.startIter n .array q 1 fun s r => s.arrayIter n none 16 r
      if ((s'.core n).seq.array.running).isSome then
        s'.onSeq n fun x => { x with ramp := .active (s.fld Reg.FTK_RAMP 6 0) (s.fld Reg.PWR_STATUS 14 8), cycle := 0 }
      else s'
    | .active _ _ =>
      if q = .idle ∧ (sq.array.waiting.any fun e => decide (e.queue = .main) && sq.waitHolds e.step.toNat) then s
      else
      match sq.array.running, sq.array.overlapCandidate q with
      | some p, some (.inl r) =>
        if sq.waitHolds r.st ∧ ¬ sq.outranked (unitRank q .array) r.st then s.joinArray n p r else s
      | some p, some (.inr e) =>
        if sq.waitHolds e.step.toNat ∧ ¬ sq.outranked (unitRank q .array) e.step.toNat then
          let s := s.onSeq n fun x => { x with array := { x.array with waiting := x.array.waiting.erase e } }
          match s.issueCheck n e.step.toNat with
          | some c => (s.refuseStep n e c).settle n
          | none => (s.joinArray n p (s.sample n e)).settle n
        else s
      | _, _ => s

/-! ### Counts and the end of activity (R137 to R149) -/

/-- The counts of an active array unit brought to cycle `c` of its activity (R148). -/
def Seq.countTo (q : Seq) (top duty c : Nat) : Seq :=
  let (lo, hi) := (schedAt duty top q.cycle, schedAt duty top c)
  { q with
    occupied := q.occupied + (c - q.cycle)
    streamed := (q.array.running.toList ++ q.array.overlap.toList).foldl (fun n r => n + rowsIn r.timeline lo hi) q.streamed
    cycle := max q.cycle c }

/-- The cycle of an array unit's activity in which the iteration in progress completes. -/
def Seq.lastCycle (q : Seq) (top duty : Nat) : Nat := (q.array.running.map fun r => dutyCycles duty top r.ends).getD q.cycle

/-- The counts of a core brought to an open present cycle, which no command tells: within the schedule of the iteration in progress,
or within the ramp-down (R149, log entry 16). -/
def State.countNow (s : State) (n : Nat) : State :=
  let q := (s.core n).seq
  match q.ramp with
  | .idle => s
  | .active top duty =>
    s.drawn.onSeq n (·.countTo top duty (q.cycle + s.freeValue.toNat % (max 1 (q.lastCycle top duty - q.cycle))))
  | .down level =>
    let k := s.freeValue.toNat % (level + 1)
    s.drawn.onSeq n fun q => { q with ramp := .down (level - k), occupied := q.occupied + k }

/-- The bytes of a wide buffer noted as an accumulation leaves them: held for one that stays open, forgotten for one that closes
(R172). -/
def Seq.holdWide (q : Seq) (acc : Nat) (l : List (Nat × Byte)) : Seq :=
  let kept := q.wideHeld.filter fun e => !l.any fun w => w.1 == e.1
  { q with wideHeld := if acc = 1 ∨ acc = 2 then kept ++ l else kept }

/-- What the final merges of an iteration leave in its wide buffer: an entry that another write has changed since the iteration issued
is undefined (R172). -/
def State.wideLanded (s : State) (r : Run) : List (Nat × Byte) :=
  match s.changed r.was with
  | [] => r.wide
  | ks => r.wide.zipIdx.map fun e =>
      if ((r.wide.drop (e.2 / 8 * 8)).take 8).any fun w => ks.contains w.1 then
        (e.1.1, (Config.freeBits (s.free + e.2)).truncate 8) else e.1

/-- `ARRAY_STEP_COMPLETION`: the last row of the iteration in progress is drained and its merges are done: its results are
written, the overflow flag and the numeric trap follow, its tokens are released, and its cycles are counted. The
iteration that joined it goes on; with none the arrays begin a ramp-down from their level (R133, R137, R140). -/
def execArrayStepCompletion (core : Coord) (s : State) : Host.Outcome State Fault Refusal :=
  let n := coreNo core
  .next <|
    match (s.core n).seq.array.running with
    | none => s
    | some r =>
      let who : Who := ⟨some n, coreHall n, s.holderOf n, 4⟩
      let s := s.onSeq n fun q => match q.ramp with
        | .active top duty => q.countTo top duty (q.lastCycle top duty)
        | _ => q
      let wide := s.wideLanded r
      let s : State := if wide = r.wide then s else { s with free := s.free + wide.length }
      let s := s.storeFor { who with req := 2 } wide
      let s := s.finishIter n .array who r
      let s := s.numericTrap n r.nan r.inf
      let s := s.onSeq n fun q =>
        let q := { q.holdWide (stAcc r.st) wide with acc := q.acc.put r.accs }
        let x := q.array
        match x.overlap with
        | some o => { q with array := { x.setOf o.entry.queue (some o) with overlap := none } }
        | none => { q with ramp := q.ramp.fall q.cycle }
      s.settle n

/-- `RAMP_DOWN_END`: the ramp level has reached 0; the cycles of the ramp-down count as occupied, and a waiting ARRAY step
may issue with a new ramp-up (R140, R141). -/
def execRampDownEnd (core : Coord) (s : State) : Host.Outcome State Fault Refusal :=
  let n := coreNo core
  .next <|
    match (s.core n).seq.ramp with
    | .down level => s.onSeq n fun q => { q with ramp := .idle, cycle := 0, occupied := q.occupied + level }
    | _ => s

end Sys2Proof.Machine
end

