-- ==== Sys2Proof/Machine/Wire.lean ====
section
/-! DEFINITION. A packet as its 64-byte flits: the header of Table 10.1, the body of Table 10.2, of R517 and of R538, the data
flits, and the slot tags under which a Garrid port sends them (10 R335, R336; 15 R515 to R517). -/
namespace Sys2Proof
open Machine (ceilDiv leBytes b2n)

/-- The TYPE code of a packet (Table 10.2, Table 15.3). -/
def PacketType.code : PacketType → Nat
  | .msg => 0x1 | .creditReq => 0x2 | .creditGrant => 0x3 | .creditRet => 0x4 | .put => 0x5 | .putAdd => 0x6
  | .signal => 0x7 | .ack => 0x8 | .nack => 0x9 | .bulkRead => 0xB | .bulkData => 0xC | .lsflag => 0xD | .reserved => 0x0

/-- The virtual channel of a packet (Table 15.3). -/
def PacketType.vc : PacketType → Nat
  | .msg | .creditReq | .creditRet => 0
  | .put | .putAdd | .signal => 1
  | .creditGrant | .ack | .nack | .reserved => 2
  | .bulkRead | .bulkData => 3
  | .lsflag => 7

/-- Whether a packet is of the class REQ (Table 10.2). -/
def PacketType.isReq : PacketType → Bool
  | .msg | .creditReq | .creditRet | .put | .putAdd | .signal => true
  | _ => false

/-- The 128-bit header of a packet (Table 10.1). QUEUE stands for MSG, the credit packets and the ACK of a MSG alone. -/
def Packet.header (p : Packet) : BitVec 128 :=
  BitVec.ofNat 4 p.type.code ++ (0 : BitVec 4) ++ p.ddev ++ p.dst.x ++ p.dst.y ++ p.sdev ++ p.src.x ++ p.src.y ++ p.job
    ++ p.epoch ++ p.frame ++ p.queue ++ (0 : BitVec 11)

/-- Fields of a body, each at its byte: the offset from the start of the flit, and the value. -/
def bodyNat (l : List (Nat × Nat)) : Nat := l.foldl (fun v f => v + f.2 * 2 ^ (8 * f.1)) 0

/-- The body fields of a packet (Table 10.2; R517 for LSFLAG; R538 for the bulk packets). SRC of a BULK_READ stands where DEST of a
BULK_DATA does, and a NACK names its transfer where a bulk packet does (DESIGN CHOICE, log entry 117). -/
def Packet.body (p : Packet) : List (Nat × Nat) :=
  match p.type with
  | .msg => [(16, p.payload.toNat)]
  | .creditReq | .reserved => []
  | .creditGrant => [(16, p.count.toNat), (17, b2n p.absent)]
  | .creditRet => [(16, p.count.toNat)]
  | .put | .putAdd => [(16, p.dd.toNat), (17, p.rtc.toNat), (18, p.format.toNat), (20, p.ext0.toNat), (24, p.ext1.toNat),
      (28, p.bytes.toNat), (32, p.tile.toNat)]
  | .signal => [(17, p.rtc.toNat), (32, p.tile.toNat)]
  | .ack => [(32, p.tile.toNat)]
  | .nack => [(16, p.xfer.toNat), (32, p.tile.toNat), (36, p.code.toNat)]
  | .bulkRead | .bulkData => [(16, p.xfer.toNat), (24, p.offset.toNat), (32, p.bytes.toNat), (40, p.dest.toNat)]
  | .lsflag => [(16, p.round.toNat + 4 * b2n p.flag + 8 * b2n p.late), (17, p.step.toNat), (21, p.exp.toNat)]

/-- The header flit: the header in bytes 0 to 15, the body in bytes 16 to 63 (R335). -/
def Packet.headerFlit (p : Packet) : List Byte := leBytes 64 (p.header.toNat + bodyNat p.body)

/-- The flits of a packet: its header and its data flits (R335, R515). -/
def Packet.slots (p : Packet) : Nat := 1 + ceilDiv p.data.length 64

/-- The data flit at an index: 64 bytes of the elements, the last padded with zeros (R336). -/
def Packet.dataFlit (p : Packet) (i : Nat) : List Byte :=
  let l := (p.data.drop (64 * i)).take 64
  l ++ List.replicate (64 - l.length) 0

/-- The tag of a data slot (Table 15.2). -/
def PacketType.dataTag (t : PacketType) : Nat := if t.vc = 3 then 3 else 2

/-- The slots in which a port sends a packet, each with its tag (Table 15.2, R516). -/
def Packet.wire (p : Packet) : List (Nat × List Byte) :=
  (1, p.headerFlit) :: (List.range (ceilDiv p.data.length 64)).map fun i => (p.type.dataTag, p.dataFlit i)

end Sys2Proof
end

