-- ==== Sys2Proof/Machine/LinkOps.lean ====
section
/-! DEFINITION. How packets travel: the mesh between the cores of the device, the routing table, and the sending side of a
Garrid port with its credits and replay buffer (10 R339 to R344, 15 R516 to R536). -/
namespace Sys2Proof

/-- The header of a reply to a packet, from its destination. -/
def Packet.reply (p : Packet) (t : PacketType) (frame : Nat) : Packet :=
  { type := t, ddev := p.sdev, dst := p.src, sdev := p.ddev, src := p.dst, job := p.job, epoch := p.epoch
    frame := BitVec.ofNat 16 frame, queue := if t = .creditGrant ∨ (t = .ack ∧ p.type = .msg) then p.queue else 0
    tile := p.tile, xfer := p.xfer }

end Sys2Proof

namespace Sys2Proof.Machine

def State.port (s : State) (g : Nat) : Port := mapGet {} s.ports g
def State.onPort (s : State) (g : Nat) (f : Port → Port) : State :=
  { s with ports := mapSet {} s.ports g (f (s.port g)) }

/-- The state of a port (Table 15.6): 0 DISABLED, 1 DOWN, 2 TRAINING, 3 UP, 4 DEGRADED, 5 FAILED. -/
def State.portState (s : State) (g : Nat) : Nat := s.fld (Reg.GAR_PORT_STATUS g) 2 0
/-- Whether a port is in service. -/
def State.portUp (s : State) (g : Nat) : Bool := s.portState g == 3 || s.portState g == 4

/-- The port by which a packet for a device leaves (R535). -/
def State.routePort (s : State) (dev : Nat) : Option Nat :=
  let e := s.reg (Reg.GAR_ROUTE dev)
  if ¬ bit e 31 then none
  else if s.portUp (bits e 3 0) then some (bits e 3 0)
  else if bit e 30 ∧ s.portUp (bits e 7 4) then some (bits e 7 4)
  else none

/-- The attachment position of a port (R340). -/
def portX (g : Nat) : Nat := if (g / 4) % 2 = 0 then 0 else 79
def portY (g : Nat) : Nat := 25 * (g / 4 / 2) + 3 + 6 * (g % 4)

/-- Whether a die is in a reset step. -/
def State.dieInReset (s : State) (d : Nat) : Bool := (mapGet none s.dies d).isSome || s.devStep.isSome

/-- The dies that the route from one position to another enters, along x and then along y (R43). -/
def routeDies (x0 y0 x1 y1 : Nat) : List Nat := [dieOf x0 y0, dieOf x1 y0, dieOf x1 y1]

/-- Whether the route from one position to another enters a die in reset (R344). -/
def State.pathBlocked (s : State) (x0 y0 x1 y1 : Nat) : Bool := (routeDies x0 y0 x1 y1).any s.dieInReset

/-- The dies that a packet in flight on this device passes. An answer whose SDEV is another device, or whose sender lies in a die in
reset, comes from a router that the header does not name: its destination's die alone is known (R344; log entry 116). -/
def State.flightDies (s : State) (p : Packet) : List Nat :=
  let (x, y) := (p.dst.x.toNat, p.dst.y.toNat)
  let (x0, y0) := (p.src.x.toNat, p.src.y.toNat)
  if p.sdev.toNat ≠ s.deviceId ∨ (¬ p.type.isReq ∧ s.dieInReset (dieOf x0 y0)) then [dieOf x y] else routeDies x0 y0 x y

/-- The receive buffer of a virtual channel in slots (Table 15.3). -/
def vcBuffer (v : Nat) : Nat := match v with | 0 => 256 | 1 => 1280 | 2 => 256 | 3 => 192 | 7 => 64 | _ => 0

/-- The credits of a channel at the sender (R518). -/
def Port.credits (q : Port) (v : Nat) : Nat := vcBuffer v + mapGet 0 q.peerFreed v - mapGet 0 q.sent v

/-- A queued packet, with its slots still to send, as it goes on: a packet of this device carries the frame number at which its first
slot, its header, leaves (R80). -/
def State.stamped (s : State) (p : Packet) (left : Nat) : Packet :=
  if left = p.slots ∧ p.sdev.toNat = s.deviceId then { p with frame := BitVec.ofNat 16 s.frame } else p

/-- The slots of the queued packets sent as far as credits and the replay buffer allow, in order within each channel. A
packet leaves with its last slot; how many flits its slots begin is open, for slots of other packets and control slots
share flits with them (R515, R518, R520). -/
def State.pump (s : State) (g : Nat) : State :=
  let q := s.port g
  let (s, _, left) := q.waiting.foldl (fun (acc : State × List Nat × List (Packet × Nat)) e =>
    let (s, stuck, left) := acc
    let v := e.1.type.vc
    let q := s.port g
    let k := min e.2 (q.credits v)
    if stuck.contains v ∨ 2048 ≤ q.seqNext - q.acked ∨ k = 0 then (s, v :: stuck, left ++ [e])
    else
      let s := s.onPort g fun q => { q with sent := mapSet 0 q.sent v (mapGet 0 q.sent v + k) }
      let p := s.stamped e.1 e.2
      if k < e.2 then (s, v :: stuck, left ++ [(p, e.2 - k)])
      else
        let n := p.slots
        let least := max (ceilDiv (n - 3) 4) (b2n (q.seqNext == 0))
        let flits := least + s.freeValue.toNat % (n - least + 1)
        let s := s.drawn.onPort g fun q =>
          { q with seqNext := q.seqNext + flits, replay := q.replay ++ [(q.seqNext + flits - 1, p)] }
        (s.emit (.garrid g p.wire), stuck, left)) (s, [], [])
  s.onPort g fun q => { q with waiting := left }

/-- A packet queued for a port. -/
def State.portSend (s : State) (g : Nat) (p : Packet) : State :=
  (s.onPort g fun q => { q with waiting := q.waiting ++ [(p, p.slots)] }).pump g

/-- A packet put on its way without a look at the dies: into the mesh, or to the port of its route, or nowhere (R342). -/
def State.post (s : State) (p : Packet) : State :=
  if p.ddev.toNat = s.deviceId then { s with flight := s.flight ++ [p] }
  else match s.routePort p.ddev.toNat with
    | some g => s.portSend g p
    | none => s

/-- A NACK of a packet with a code. -/
def State.nackFor (s : State) (p : Packet) (code : Nat) : State :=
  s.post { p.reply .nack s.frame with code := BitVec.ofNat 16 code }

/-- The answer to a packet whose peer is absent (Table 10.4, R344): a credit request gets a grant of COUNT 0 with ABSENT, a
tile or a signal a NACK; other packets are dropped. -/
def State.absentReply (s : State) (p : Packet) : State :=
  match p.type with
  | .creditReq => s.post { p.reply .creditGrant s.frame with absent := true }
  | .put | .putAdd | .signal => s.nackFor p Code.MSG_PEER_ABSENT
  | _ => s

/-- A packet of a core sent on its way; none when it has no route (R339, R342). Its route to the port must not enter a
die in reset (R344). -/
def State.sendPacket (s : State) (p : Packet) : Option State :=
  let (x, y) := (p.src.x.toNat, p.src.y.toNat)
  if p.ddev.toNat = s.deviceId then some { s with flight := s.flight ++ [p] }
  else (s.routePort p.ddev.toNat).map fun g =>
    if s.pathBlocked x y (portX g) (portY g) then s.absentReply p else s.portSend g p

/-- A code of Table 15.7 recorded for a port, with its event. -/
def State.portCode (s : State) (g src code : Nat) : State :=
  (s.setFld (Reg.GAR_PORT_CODE g) 15 0 code).raise { src := src, code := code, inst := g }

/-- A port leaves service: its replay buffer and its queue are discarded, with a NACK of LINK_DOWN for each request (R531),
and LINK_DOWN is recorded (R527). `state` is DOWN or DISABLED. -/
def State.portLeaves (s : State) (g state : Nat) : State :=
  let q := s.port g
  let gone := (q.replay.map (·.2)) ++ q.waiting.map (·.1)
  let s := s.setFld (Reg.GAR_PORT_STATUS g) 2 0 state
  let s := s.setFld (Reg.GAR_PORT_STATUS g) 11 8 0
  let s := s.onPort g fun q =>
    { scan := q.scan, readmit := q.readmit, lastLanes := q.lastLanes, syncSeq := q.syncSeq, delaySeq := q.delaySeq, delay := q.delay }
  let s := s.each (gone.filter (·.type.isReq)) fun s p => s.nackFor p Code.LINK_DOWN
  s.portCode g 0x36 Code.LINK_DOWN

/-! ### Training (R524 to R528, R661 to R663) -/

/-- A training fails: the port waits in DOWN (R525). -/
def State.trainFail (s : State) (g src code : Nat) : State :=
  ((s.setFld (Reg.GAR_PORT_STATUS g) 2 0 1).onPort g fun q => { q with attempts := q.attempts + 1, ident := none }).portCode g src code

/-- Whether a port may start training: the features are locked, the device id is set, and its connector has a cable with
power (R524, R661, R662). -/
def State.mayTrain (s : State) (g : Nat) : Bool :=
  let c := mapGet {} s.cables (g / 4)
  bit (s.reg (Reg.GAR_PORT_CTRL g)) 31 && bit (s.reg Reg.DEV_FEATURE_CTRL) 0 && s.deviceId != 0xFFFF && c.present && c.vcbl

/-- A port in DOWN starts training if it may; a cable that is too long, or that cannot be read, fails it (R524, R663). A
LANE_RESET written before readmits the excluded lanes (R527). -/
def State.startTraining (s : State) (g : Nat) : State :=
  if s.portState g ≠ 1 ∨ ¬ s.mayTrain g then s
  else
    let s := if (s.port g).readmit then
        (s.setFld (Reg.GAR_PORT_STATUS g) 7 4 0).onPort g fun q => { q with readmit := false }
      else s
    let s := s.setFld (Reg.GAR_PORT_STATUS g) 2 0 2
    if (mapGet {} s.cables (g / 4)).kind = 2 then s.trainFail g 0x38 Code.LINK_TRAIN_FAIL
    else s.onPort g fun q => { q with ident := none, aligned := [] }

/-- The ports that wait in DOWN without a failure behind them start training (R524). -/
def State.startPorts (s : State) (l : List Nat) : State :=
  s.each (l.filter fun g => (s.port g).attempts == 0) fun s g => s.startTraining g

/-- The check of the frame number of a packet from another device (R80). -/
def State.skewCheck (s : State) (p : Packet) : State :=
  let d := (s.frame + 2 ^ 16 - p.frame.toNat) % 2 ^ 16
  if s.fld Reg.FTK_SKEW_TOL 1 0 < d then
    ((s.count Reg.FTK_SKEW_COUNT 1).setFld Reg.FTK_STATUS 31 16 Code.FRAME_SKEW).raise
      { src := 0x32, code := Code.FRAME_SKEW }
  else s

/-- A packet received whole by a port in service: its slots leave the receive buffer (R518). A port that waits for a
REPLAY_START discards what arrives (R522). A packet on its way to another device meets the check of R80 too, for this device
receives it (DESIGN CHOICE: the manual does not say whether it does; log entry 106). -/
def State.portReceive (s : State) (g : Nat) (p : Packet) : Option State :=
  if ¬ s.portUp g ∨ (s.port g).rxWait.isSome then none
  else
    let v := p.type.vc
    some ((s.onPort g fun q => { q with freed := mapSet 0 q.freed v (mapGet 0 q.freed v + p.slots) }).skewCheck p)

/-- Whether the first packet in flight from a core to a queue of another is this one: messages arrive in order (R230). -/
def State.nextMsg (s : State) (p : Packet) : Bool :=
  (s.flight.find? fun q => decide (q.type = .msg ∧ q.src = p.src ∧ q.dst = p.dst ∧ q.queue = p.queue)) == some p

/-- A header slot whose TYPE is not in Table 15.3 is discarded and counted (R516). -/
def State.discardHeader (s : State) (g : Nat) : State :=
  if ¬ s.portUp g ∨ (s.port g).rxWait.isSome then s else s.count (Reg.GAR_PORT_UE g) 1

/-- What a packet that is not of its row's type does: one of a reserved TYPE on a port is discarded there. -/
def State.arriveOther (s : State) (port : Option PortId) (p : Packet) : State :=
  match port, p.type with
  | some g, .reserved => s.discardHeader g.toNat
  | _, _ => s

/-- The arrival of a packet of a type. From the mesh it must be in flight; from a port, it is received, passed on when it
is for another device (R535), or taken to its destination. `k` says what the destination does; what a die in reset cuts
off is answered as absent (R344). -/
def State.arrive (s : State) (port : Option PortId) (p : Packet) (t : PacketType) (k : State → State) : State :=
  let (x, y) := (p.dst.x.toNat, p.dst.y.toNat)
  if p.type ≠ t then s.arriveOther port p
  else if 80 ≤ x ∨ 50 ≤ y then s
  else match port with
    | none =>
      if ¬ s.flight.contains p ∨ (t = .msg ∧ ¬ s.nextMsg p) then s
      else
        let s : State := { s with flight := s.flight.erase p }
        if (s.flightDies p).any s.dieInReset then s.absentReply p else k s
    | some g =>
      match s.portReceive g.toNat p with
      | none => s
      | some s =>
        if p.ddev.toNat ≠ s.deviceId then
          match s.routePort p.ddev.toNat with
          | none => s
          | some o =>
            if s.pathBlocked (portX g.toNat) (portY g.toNat) (portX o) (portY o) then s.absentReply p else s.portSend o p
        else if s.pathBlocked (portX g.toNat) (portY g.toNat) x y then s.absentReply p
        else k s

/-- The arrival of a packet that is for a device and not for one of its cores: it crosses no mesh (R538, R382). -/
def State.arriveDevice (s : State) (port : Option PortId) (p : Packet) (t : PacketType) (k : State → State) : State :=
  if p.type ≠ t then s.arriveOther port p
  else match port with
    | none => if s.flight.contains p then k { s with flight := s.flight.erase p } else s
    | some g =>
      match s.portReceive g.toNat p with
      | none => s
      | some s =>
        if p.ddev.toNat = s.deviceId then k s
        else match s.routePort p.ddev.toNat with
          | none => s
          | some o => s.portSend o p

/-! ### Where a packet is delivered (R343, Table 10.4) -/

/-- Whose a packet is at its destination hall: the context that holds the hall, one that is PREEMPTED on it, or none. -/
inductive Place where
  | held (ctx : Nat)
  | saved (ctx : Nat)
  | absent
deriving DecidableEq, Repr

/-- The place of a packet with a job tag for a hall (Table 10.4). -/
def State.placeOf (s : State) (h : Nat) (job : W16) : Place :=
  if s.inStep h then .absent
  else
    let holds := match (s.hall h).holder with
      | some c => if (s.ctx c).job = job.toNat then some c else none
      | none => none
    match holds with
    | some c => .held c
    | none =>
      match s.ctxs.find? fun e => decide (e.2.state = .preempted) && e.2.job == job.toNat && bit e.2.named h with
      | some e => .saved e.1
      | none => .absent

end Sys2Proof.Machine
end

