-- ==== Sys2Proof/Machine/HostOps.lean ====
section
/-! DEFINITION. The host interface's shared operations: PCIe functions, features, rings, the acceptance and completion of
commands, mailboxes, and the checks of host accesses to device memory (14, 09 R317). -/
namespace Sys2Proof.Machine

/-! ### Functions and features (R472 to R476, R503 to R505) -/

/-- The offset under which a function's admin register is held: the PF's is an HST register, a VF's has its own (R505). -/
def hst (fn off : Nat) : Nat := 2 ^ 32 * fn + 0x200000 + off

/-- Records a host-group code in a function's HST_STATUS. -/
def State.hstCode (s : State) (fn code : Nat) : State := s.setFld (hst fn 0) 31 16 code

/-- What VF_CONFIG has given a virtual function. -/
def State.vf (s : State) (fn : Nat) : Option VfConfig := mapGet none s.pcie.vfs fn

/-- The function that owns a ring (R476). -/
def State.ringFn (s : State) (r : Nat) : Nat :=
  match s.pcie.vfs.find? fun e => match e.2 with
      | some v => v.firstRing ≤ r && r < v.firstRing + v.rings
      | none => false with
  | some e => e.1
  | none => 0

/-- The admin ring of a function (R476). -/
def State.adminRing (s : State) (fn : Nat) : Option Nat := if fn = 0 then some 0 else (s.vf fn).map (·.firstRing)
def State.isAdmin (s : State) (r : Nat) : Bool := s.adminRing (s.ringFn r) == some r

/-- Whether the lock is set, and whether a feature has been accepted (R473, R475). -/
def State.locked (s : State) : Bool := bit (s.reg Reg.DEV_FEATURE_CTRL) 0
def State.feature (s : State) (b : Nat) : Bool := s.locked && bit (s.reg Reg.DEV_FEATURE_ACCEPT0) b

/-- A register write that needs a feature that was not accepted records the code (R475). -/
def State.featureCode (s : State) (code : Nat) : State := s.setFld Reg.DEV_FEATURE_CTRL 31 16 code

/-- The features of Table 14.2. -/
def featSriov : Nat := 0
def featMailbox : Nat := 1
def featGarrid : Nat := 2
def featEvict : Nat := 3
def featKeep : Nat := 4
def featZstd : Nat := 5
def featGen : Nat := 6
def featLoss : Nat := 7
def featMove : Nat := 8
def featExport : Nat := 9
def featPtp : Nat := 10
def featDegrade : Nat := 11
def featTest : Nat := 12

/-! ### The functions in configuration space (R467, R468, R503) -/

/-- The capabilities of a function (R468). -/
inductive Capability where
  | powerManagement | pciExpress | msix | advancedErrorReporting | resizableBar | ari | sriov | tenBitTags | dllActiveReporting
deriving DecidableEq, Repr

/-- What a function shows in configuration space. -/
structure PciFunction where
  vendor : BitVec 16
  device : BitVec 16
  classCode : BitVec 24
  vectors : Nat
  capabilities : List Capability
deriving DecidableEq, Repr

/-- The SR-IOV capability: TotalVFs, VF stride and first VF offset (R503). -/
def totalVfs : Nat := 16
def vfStride : Nat := 1
def firstVfOffset : Nat := 1

/-- The routing number of a function, counted from the PF's. -/
def routingOffset (fn : Nat) : Nat := if fn = 0 then 0 else firstVfOffset + (fn - 1) * vfStride

/-- The physical function, and a virtual function once VF Enable is set (R467, R468, R501, R503). BAR4 of a VF has one size, and SR-IOV
and the state of the link are the PF's. After a power-up the PF asks to be tried again until the images have been verified (R670); with
boot stopped it has neither SR-IOV nor MSI-X and BAR0 only (R604). -/
def State.pciFunction (s : State) (fn : Nat) : Option PciFunction :=
  let shared : List Capability := [.powerManagement, .pciExpress, .msix, .advancedErrorReporting, .ari, .tenBitTags]
  let phase := s.fld Reg.DEV_BRINGUP 31 28
  if phase < 2 ∧ bit (s.reg Reg.DEV_BRINGUP) 27 then none
  else if phase = 8 then
    if fn = 0 then
      some ⟨Config.vendorId, 0x4000, 0x120000, 0, [.powerManagement, .pciExpress, .advancedErrorReporting, .ari, .tenBitTags,
        .dllActiveReporting]⟩
    else none
  else if fn = 0 then
    some ⟨Config.vendorId, 0x4000, 0x120000, 2048, shared ++ [.resizableBar, .sriov, .dllActiveReporting]⟩
  else if fn ≤ totalVfs ∧ s.pcie.vfEnable then some ⟨Config.vendorId, 0x4001, 0x120000, 128, shared⟩
  else none

/-- Max Payload Size and Max Read Request Size lie in the ranges of R468. -/
def Pcie.sizesOk (p : Pcie) : Bool :=
  [128, 256, 512].contains p.maxPayload && [128, 256, 512, 1024, 2048, 4096].contains p.maxReadRequest

/-! ### Submission entries (Table 14.3) -/

/-- `n` bytes at offset `o` of an entry. -/
def entryAt (e : BitVec 512) (o n : Nat) : Nat := bits e.toNat (8 * (o + n) - 1) (8 * o)

def Cmd.at_ (k : Cmd) (o n : Nat) : Nat := entryAt k.entry o n
def Cmd.op (k : Cmd) : Nat := k.at_ 0 1
def Cmd.mbox (k : Cmd) : Bool := bit (k.at_ 1 1) 0
def Cmd.order (k : Cmd) : Bool := bit (k.at_ 1 1) 1
def Cmd.noIrq (k : Cmd) : Bool := bit (k.at_ 1 1) 2
def Cmd.ctx (k : Cmd) : Nat := bits (k.at_ 2 2) 11 0

/-- The ring kinds of Table 14.4. -/
inductive RingKind where
  | any | admin | pf | bound
deriving DecidableEq, Repr

/-- The ring kind of an opcode, none for one that Table 14.4 does not list. -/
def opKind (op : Nat) : Option RingKind :=
  match op with
  | 0x01 => some .any
  | 0x02 | 0x03 | 0x10 | 0x15 => some .admin
  | 0x04 | 0x05 => some .pf
  | 0x11 | 0x12 | 0x13 | 0x14 | 0x16 | 0x17 | 0x18 | 0x20 | 0x21 | 0x22 | 0x30 | 0x31 | 0x32 | 0x33 | 0x34 => some .bound
  | _ => none

/-- The context that a command targets: that of its CTX field for ring kind B and for a CREATE_RING with BOUND = 1
(R486). -/
def entryTarget (e : BitVec 512) : Option Nat :=
  let op := entryAt e 0 1
  if opKind op = some .bound ∨ (op = 2 ∧ bit (entryAt e 22 1) 0) then some (bits (entryAt e 2 2) 11 0) else none

/-! ### Rings -/

def Ring.sqSize (r : Ring) : Nat := 2 ^ r.sqLog2
def Ring.cqSize (r : Ring) : Nat := 2 ^ r.cqLog2

/-- One command of a ring changed by `f`. -/
def State.onCmd (s : State) (c : CmdRef) (f : Cmd → Cmd) : State :=
  s.onRing c.ring fun r => { r with cmds := r.cmds.map fun k => if k.id = c.id then f k else k }

/-- A command has acted: a deletion of its ring no longer withdraws it (R488, R489). -/
def State.acted (s : State) (c : CmdRef) : State := s.onCmd c fun k => { k with acted := true }

/-- A ring enters ERROR (R480, R485). -/
def State.ringError (s : State) (ring code : Nat) : State :=
  ((s.onRing ring fun r => { r with state := .error }).hstCode (s.ringFn ring) code).raise
    { src := 0x42, code := code, inst := ring % 256 }

/-- The bytes of completion `k` of a queue of `n` records (Table 14.6, R494). -/
def recordBytes (h : Held) (k n : Nat) : List Byte :=
  leBytes 8 h.tag.toNat ++ leBytes 8 h.r0 ++ leBytes 8 h.r1 ++ leBytes 4 h.seq
    ++ leBytes 4 (2 ^ 31 * (b2n ((k / n) % 2 = 0)) + 2 ^ 16 * (h.opcode % 256) + h.code % 65536)

/-- A completion record written to the next slot of its queue, bytes 0 to 27 and then bytes 28 to 31, and then its message (R494, R495,
R502). -/
def State.postRecord (s : State) (ring : Nat) (h : Held) : State :=
  let r := s.ring ring
  let slot := r.posted % r.cqSize
  let record := recordBytes h r.posted r.cqSize
  let s := s.emit (.completion ring slot (r.cq + 32 * slot) (record.take 28))
  let s := s.emit (.completion ring slot (r.cq + 32 * slot + 28) (record.drop 28))
  let s := s.onRing ring fun r => { r with posted := r.posted + 1 }
  if h.noIrq then s else s.sendMsix (s.ringFn ring) r.vector

/-- A completion posted, or held while its queue is full (R497). Nothing is posted for a DISABLED ring. -/
def State.postOrHold (s : State) (ring : Nat) (h : Held) : State :=
  let r := s.ring ring
  if r.state = .disabled then s
  else if r.cqSize ≤ r.posted - r.released ∨ r.held ≠ [] then
    let fn := s.ringFn ring
    (((s.onRing ring fun r => { r with held := r.held ++ [h] }).count (hst fn 0x3C) 1).hstCode fn Code.CQ_FULL).raise
      { src := 0x43, code := Code.CQ_FULL }
  else s.postRecord ring h

/-- Held completions posted, oldest first, while slots are free (R497). -/
def State.flushHeld (s : State) (ring : Nat) : State :=
  (s.ring ring).held.foldl (fun s h =>
    let r := s.ring ring
    if r.cqSize ≤ r.posted - r.released then s
    else (s.onRing ring fun r => { r with held := r.held.drop 1 }).postRecord ring h) s

/-! ### Mailboxes (R498 to R500) -/

def State.mbox (s : State) (ring : Nat) : Mailbox := mapGet {} s.mboxes ring
def State.setMbox (s : State) (ring : Nat) (m : Mailbox) : State := { s with mboxes := mapSet {} s.mboxes ring m }

/-- The layout of Table 14.12. -/
def Mailbox.word (m : Mailbox) : Nat :=
  2 ^ 62 * m.tag + 2 ^ 56 * (m.reads % 64) + 2 ^ 48 * (m.seq % 256) + 2 ^ 32 * (m.status % 65536) + m.value % 2 ^ 32

/-- The read of a mailbox that counts (R500). -/
def State.mboxRead (s : State) (ring : Nat) : Nat × State :=
  let m := s.mbox ring
  (m.word, if m.tag = 0 then s else s.setMbox ring { m with reads := min 63 (m.reads + 1) })

/-- A command with MBOX = 1 is accepted: its ring's mailbox names it (R498). -/
def State.mboxNames (s : State) (ring : Nat) (k : Cmd) : State :=
  if k.mbox ∧ s.feature featMailbox then s.setMbox ring { tag := 1, seq := k.seq } else s

/-- The command that the mailbox names completes (R499). -/
def State.mboxResult (s : State) (ring : Nat) (k : Cmd) (code r0 : Nat) : State :=
  let m := s.mbox ring
  if k.mbox ∧ m.tag = 1 ∧ m.seq = k.seq then
    s.setMbox ring { m with tag := 2, reads := 0, status := code, value := r0 % 2 ^ 32 }
  else s

/-! ### Completing commands (R483 to R489) -/

/-- The completion of a command, if its ring still lists it. -/
def State.complete (s : State) (c : CmdRef) (code r0 r1 : Nat) : State :=
  match (s.ring c.ring).cmds.find? (·.id == c.id) with
  | none => s
  | some k =>
    let s := s.onRing c.ring fun r => { r with cmds := r.cmds.filter (·.id ≠ c.id) }
    (s.mboxResult c.ring k code r0).postOrHold c.ring
      { seq := k.seq, opcode := k.op, tag := BitVec.ofNat 64 (k.at_ 8 8), code := code, r0 := r0, r1 := r1, noIrq := k.noIrq }

/-- A command completes with a code and no results. -/
def State.done (s : State) (c : CmdRef) (code : Nat) : State := s.complete c code 0 0

/-- A completion with HOST_DMA: a host access of the command failed (R492). -/
def State.hostFail (s : State) (c : CmdRef) : State :=
  (s.raise { src := 0x40, code := Code.HOST_DMA }).done c Code.HOST_DMA

/-- A command counts as accepted from now on (R482, R484). -/
def State.accept (s : State) (ring : Nat) (k : Cmd) : State :=
  let s := s.onCmd ⟨ring, k.id⟩ fun k => { k with accepted := true, serial := s.serial }
  ({ s with serial := s.serial + 1 } : State).mboxNames ring k

/-- An ORDER command starts: it and the commands behind it, up to the next ORDER command, count as accepted (R484). -/
def State.acceptFrom (s : State) (ring id : Nat) : State :=
  match (s.ring ring).cmds.dropWhile (·.id ≠ id) with
  | [] => s
  | k :: rest => (s.accept ring k).each (rest.takeWhile fun x => !x.order) fun s x => s.accept ring x

/-- The performance of an accepted command: the command of a ring that has a SEQ, if it has the opcode, has not started,
and, with ORDER = 1, every earlier command of its ring has completed (R484). -/
def State.withCmd (s : State) (ring seq op : Nat) (f : CmdRef → Cmd → State → State) : State :=
  let r := s.ring ring
  match r.cmds.find? (·.seq == seq) with
  | none => s
  | some k =>
    let first := (r.cmds.head?.map (·.id)) == some k.id
    if k.op ≠ op ∨ k.started ∨ ¬ (k.accepted ∨ (k.order ∧ first)) then s
    else
      let s := if k.accepted then s else s.acceptFrom ring k.id
      let s := s.onCmd ⟨ring, k.id⟩ fun k => { k with started := true }
      let k := ((s.ring ring).cmds.find? (·.id == k.id)).getD k
      f ⟨ring, k.id⟩ k s

/-! ### Host accesses to device memory (R317, R492) -/

/-- The contexts of a function. -/
def State.ctxsOf (s : State) (fn : Nat) : List Nat := s.liveCtxs.filter fun c => (s.ctx c).fn == fn

/-- The check of `n` bytes at a physical address for a host access of a function: the first failing 256-byte unit decides
(R317). A read corrects what it meets (R324). -/
def State.hostCheck (s : State) (fn a n : Nat) (write : Bool) : Option Nat × State :=
  (if n = 0 then [] else cutUnits 256 (a, n)).foldl (fun acc r =>
    if acc.1.isSome then acc
    else
      let s := acc.2
      let code :=
        if 2 ^ 40 < r.1 + r.2 then some Code.MEM_OWNER
        else if fn = 0 then
          (if s.chState (channelOf r.1) ≠ 2 then some Code.MEM_CHANNEL_DOWN
           else if reservedPage (r.1 / 65536) then some Code.MEM_RESERVED else none)
        else s.potCheck (s.ctxsOf fn) r.1 write false
      match code with
      | some c => (some c, s)
      | none =>
        if write then (none, s)
        else
          let s := s.meetErrors r.1 r.2
          (if fn ≠ 0 ∧ (s.ueAt r.1 r.2).isSome then some Code.MEM_UE else none, s)) (none, s)

/-- A little-endian number of `n` bytes of a list at an offset. -/
def numAt (bs : List Byte) (o n : Nat) : Nat := leField bs o n

end Sys2Proof.Machine
end

