-- ==== Sys2Proof/Machine/VectorUnit.lean ====
section
/-! DEFINITION. The vector unit: the opcodes of Table 7.4, their iterations and completions (07 R244, R686, R687; 08 R293;
11 R376). -/
namespace Sys2Proof.Machine

/-- The fixed function of an opcode. -/
def fixedOf (op : Nat) : Option FixedFn :=
  match op with
  | 0x10 => some .exp | 0x11 => some .rsqrt | 0x12 => some .recip | 0x18 => some .relu | 0x19 => some .lrelu
  | 0x1A => some .sigmoid | 0x1B => some .tanh | 0x1C => some .softplus | 0x1D => some .elu | 0x1E => some .sqrelu
  | 0x1F => some .gelu | 0x20 => some .silu | _ => none

/-- The quotient of two FP32 values rounded once by RNE: the exact quotient, cut far below FP32's last place, with a sticky
bit. -/
def divF32 (a b : Nat) : Nat :=
  match f32 a, f32 b with
  | .nan, _ => fp32.nanOut
  | _, .nan => fp32.nanOut
  | .inf _, .inf _ => fp32.nanOut
  | .inf x, .fin y _ _ => fp32.infEnc (x != y)
  | .fin x _ _, .inf y => fp32.signed (x != y) 0
  | .fin x m e, .fin y n f =>
    if n = 0 then (if m = 0 then fp32.nanOut else fp32.infEnc (x != y))
    else
      let q := m * 2 ^ 100 / n
      let sticky := if m * 2 ^ 100 % n = 0 then 0 else 1
      rne32 (.fin (x != y) (2 * q + sticky) (e - f - 101))

/-- The maximum (or minimum) of two FP32 encodings. With one NaN operand the manual states no result, and of two zeros of
unlike sign it does not say which: `free` decides (log entry 17). -/
def pickF32 (isMax : Bool) (free a b : Nat) : Nat :=
  let x := f32 a
  let y := f32 b
  if x.isNan ∧ y.isNan then fp32.nanOut
  else if x.isNan ∨ y.isNan then free % 2 ^ 32
  else if x.isZero ∧ y.isZero then (if free % 2 = 0 then a else b)
  else rne32 (if isMax then x.max y else x.min y)

/-- The FP32 result of an element-wise floating-point opcode (R244, R376); `free` and `err` are the open values of the
element. -/
def vectorOp (op imm free : Nat) (err : Int) (a b c : Nat) : Nat :=
  match op with
  | 1 => rne32 ((f32 a).add (f32 b))
  | 2 => rne32 ((f32 a).add (f32 b).negate)
  | 3 => rne32 ((f32 a).mul (f32 b))
  | 4 => pickF32 true free a b
  | 5 => pickF32 false free a b
  | 6 => rne32 (((f32 a).mul (f32 b)).add (f32 c))
  | 7 => rne32 ((f32 a).mul (bf16.decode imm))
  | 9 => rne32 (bf16.decode imm)
  | _ => match fixedOf op with
    | some f => f.apply imm a
    | none => if 0x28 ≤ op ∧ op ≤ 0x2F then doutApply op imm a b err else 0

/-- The exact integer result of an integer opcode (Table 7.4). -/
def vectorIntOp (op : Nat) (a b : Int) : Int :=
  match op with
  | 0x38 => a + b
  | 0x39 => a - b
  | 0x3A => a * b
  | 0x3B => max a b
  | _ => min a b

/-- The integer that a value of an integer format is. -/
def FVal.toInt : FVal → Int
  | .fin n m e => let v : Int := (m * 2 ^ e.toNat : Nat); if n then -v else v
  | _ => 0

/-- A copy of encodings between operands of one format, with the scales of an MX format (R280): `src` gives the source
coordinate of a destination coordinate, none for a supplied zero, and `free` the value of an element that is open. -/
def State.copyRaw (s : State) (n : Nat) (ds dd : Desc) (walk exts : List Nat) (free : List Nat → Option Nat)
    (src : List Nat → Option (List Nat)) : Written :=
  (coords exts).foldl (fun w c =>
    let dc := fullCoord walk c
    let raw := match free c, src c with
      | some v, _ => v % 2 ^ dd.bitsPer
      | none, some sc => s.rawAt n ds sc
      | none, none => 0
    let ws := s.putElem w.writes n dd dc raw
    let ws := if isMx dd.format then
        let k := dd.auxKey n dc
        let v := match free c, src c with
          | some v, _ => BitVec.ofNat 8 (v / 256)
          | none, some sc => s.byte (ds.auxKey n sc)
          | none, none => 0
        ws.filter (fun e => e.1 ≠ k) ++ [(k, v)]
      else ws
    { w with writes := ws }) {}

/-- The sources of a VECTOR iteration as coordinates of their descriptors. -/
def Run.vecCoord (r : Run) (i : Nat) (c : List Nat) : List Nat :=
  let d := r.desc i
  d.permuted (fullCoord (d.walk (stRank r.st) r.ix) c)

/-- What an element-wise iteration writes. -/
def State.vectorValues (s : State) (n : Nat) (r : Run) (ue : List Nat) : Written :=
  let st := r.st
  let op := stOp st
  let k := stRank st
  let dd := r.desc 0
  let walk := dd.walk k r.ix
  let exts := (List.range k).map dd.extent
  let (ra, rb, rc) := vecReads op
  let taint (c : List Nat) : Bool := ue ≠ [] &&
    ((ra && (r.desc 1).tainted n ue (r.vecCoord 1 c)) || (rb && (r.desc 2).tainted n ue (r.vecCoord 2 c))
      || (rc && op ≠ 0x30 && (r.desc 3).tainted n ue (r.vecCoord 3 c)))
  let open_ (c : List Nat) : Nat := (Config.freeBits (s.free + linear exts c)).toNat
  let free (c : List Nat) : Option Nat := if taint c then some (open_ c) else none
  let val (i : Nat) (c : List Nat) : FVal := s.valAt n (r.desc i) (r.vecCoord i c)
  let enc (i : Nat) (c : List Nat) : Nat := rne32 (val i c)
  let base := s.drawAt n 1 r
  let mode := stMode st dd
  let sr (i : Nat) : Nat :=
    if stDraws st 0 dd then srDraw r.seed.toNat r.frame (srId n 1 r.entry.queue) (base + 8 * (i / 64)) (i % 64) else 0
  if 0x38 ≤ op then
    (coords exts).foldl (fun w c =>
      let v := match free c with
        | some v => v % 2 ^ dd.bitsPer
        | none => wrapTo dd.bitsPer
            (satWrap (stSat st) dd.bitsPer (vectorIntOp op (val 1 c).toInt (val 2 c).toInt))
      { w with writes := s.putElem w.writes n dd (fullCoord walk c) v }) {}
  else if op = 8 then
    let src := (r.desc 1).format
    if src = dd.format then s.copyRaw n (r.desc 1) dd walk exts free fun c => some (r.vecCoord 1 c)
    else if isNarrowInt src then
      (coords exts).foldl (fun w c =>
        let v := match free c with
          | some v => v % 2 ^ dd.bitsPer
          | none => s.expandCode n (r.desc 1) dd.nanOpt (r.vecCoord 1 c) (s.rawAt n (r.desc 1) (r.vecCoord 1 c))
        { w with writes := s.putElem w.writes n dd (fullCoord walk c) v }) {}
    else s.writeOperand n dd walk exts src (if narrows src dd.format then mode else 0) (stSat st) sr free (val 1)
  else if op = 0x0A then
    (coords exts).foldl (fun w c =>
      { w with writes := s.putElem w.writes n dd (fullCoord walk c)
                (if c.getD 0 0 % 2 = 0 then 0xFF800000 else 0) }) {}
  else if op = 0x30 then
    let dc := r.desc 3
    let cw := dc.walk k r.ix
    let stat (i b : Nat) : Nat := s.rawAt n dc (fullCoord cw [2 * i + b])
    let rowTaint (c : List Nat) : Bool := ue ≠ [] && dc.tainted n ue (fullCoord cw [2 * c.getD 1 0])
    s.writeOperand n dd walk exts 0 mode (stSat st) sr
      (fun c => if taint c ∨ rowTaint c then some (open_ c) else none) fun c =>
        let i := c.getD 1 0
        f32 (divF32 (exp32 (rne32 ((f32 (enc 1 c)).add (f32 (stat i 0)).negate))) (stat i 1))
  else
    s.writeOperand n dd walk exts 0 mode (stSat st) sr free fun c =>
      f32 (vectorOp op (stImm st) (open_ c) (Config.doutError s.free (linear exts c)) (if ra then enc 1 c else 0)
        (if rb then enc 2 c else 0) (if rc then enc 3 c else 0))

/-- The distinct indices of a list other than the null index, in order of first appearance (R293). -/
def distinctIdx (l : List Nat) : List Nat :=
  l.foldl (fun acc i => if i = 0x80000000 ∨ acc.contains i then acc else acc ++ [i]) []

/-- What a SEGSUM iteration writes: the sums of the rows that share an index, each in an open order, and the indices
(R293). -/
def State.segsumValues (s : State) (n : Nat) (r : Run) (ue : List Nat) : Written :=
  let st := r.st
  let (dd, da, db, dc) := (r.desc 0, r.desc 1, r.desc 2, r.desc 3)
  let rows := dd.extent 1
  let src (i j : Nat) : List Nat := da.permuted (fullCoord (da.walk 2 r.ix) [j, i])
  let idxAt (i : Nat) : List Nat := db.permuted (fullCoord (db.walk 1 r.ix) [i])
  let idx := (List.range rows).map fun i => s.rawAt n db (idxAt i)
  let us := distinctIdx idx
  let members (m : Nat) : List Nat := match us[m]? with
    | some u => (List.range rows).filter fun i => idx.getD i 0 == u
    | none => []
  let anyIdx := ue ≠ [] && (List.range rows).any fun i => db.tainted n ue (idxAt i)
  let walk := dd.walk 2 r.ix
  let exts := [dd.extent 0, rows]
  let open_ (c : List Nat) : Nat := (Config.freeBits (s.free + linear exts c)).toNat
  let base := s.drawAt n 1 r
  let mode := stMode st dd
  let sr (i : Nat) : Nat :=
    if stDraws st 0 dd then srDraw r.seed.toNat r.frame (srId n 1 r.entry.queue) (base + 8 * (i / 64)) (i % 64) else 0
  let out := s.writeOperand n dd walk exts 0 mode (stSat st) sr
    (fun c => if anyIdx ∨ (ue ≠ [] ∧ ((members (c.getD 1 0)).any fun i => da.tainted n ue (src i (c.getD 0 0))) = true) then
      some (open_ c) else none)
    fun c => f32 (sumInOrder (Config.sumOrder (s.free + linear exts c))
      ((members (c.getD 1 0)).map fun i => rne32 (s.valAt n da (src i (c.getD 0 0)))))
  let ws := (List.range rows).foldl (fun w m =>
    let v := if anyIdx then (Config.freeBits (s.free + rows * dd.extent 0 + m)).toNat % 2 ^ 32
      else us.getD m 0x80000000
    s.putElem w n dc (fullCoord (dc.walk 1 r.ix) [m]) v) out.writes
  { out with writes := ws }

/-- Every element that a VECTOR iteration reads. -/
def Run.vectorReads (r : Run) (n : Nat) : List (Nat × Nat) :=
  let op := stOp r.st
  let k := stRank r.st
  let dd := r.desc 0
  if op = 0x31 then
    (r.desc 1).ranges n ((coords [dd.extent 0, dd.extent 1]).map fun c =>
      (r.desc 1).permuted (fullCoord ((r.desc 1).walk 2 r.ix) c))
    ++ (r.desc 2).ranges n ((coords [dd.extent 1]).map fun c =>
      (r.desc 2).permuted (fullCoord ((r.desc 2).walk 1 r.ix) c))
  else
    let (ra, rb, rc) := vecReads op
    let cs := coords ((List.range k).map dd.extent)
    (if ra then (r.desc 1).ranges n (cs.map (r.vecCoord 1)) else [])
    ++ (if rb then (r.desc 2).ranges n (cs.map (r.vecCoord 2)) else [])
    ++ (if op = 0x30 then (r.desc 3).ranges n ((coords [(r.desc 3).extent 0]).map (fullCoord ((r.desc 3).walk k r.ix)))
        else if rc then (r.desc 3).ranges n (cs.map (r.vecCoord 3)) else [])

/-- A VECTOR iteration computed. The draw index advances by 8 calls for each group of 64 elements under SR, and the free
values are drawn. -/
def State.vectorIter (s : State) (n : Nat) (r : Run) : State × Option Run :=
  let st := r.st
  let dd := r.desc 0
  let op := stOp st
  let k := if op = 0x31 then 2 else stRank st
  let count := dd.operandCount k
  let who : Who := ⟨some n, coreHall n, s.holderOf n, 5⟩
  let (ue, s1) := if s.mem.ecc = [] then ([], s) else s.readErrors who (r.vectorReads n)
  let s1 := if ue = [] then s1 else s1.stopQueue n r.entry.queue
  let w := if op = 0x31 then s.segsumValues n r ue else s.vectorValues n r ue
  let src := if op = 8 then (r.desc 1).format else 0
  let s1 := if op < 0x38 ∧ op ≠ 0x0A ∧ stDraws st src dd then s1.drawMore n 1 r (8 * ceilDiv count 64) else s1
  ({ s1 with free := s1.free + count + dd.extent 1 },
    some { r with writes := w.writes, overflow := w.overflow })

/-- A VECTOR iteration of opcode `op` at the head of a queue starts (R244, R248). -/
def State.startVector (s : State) (core : Coord) (q : Queue) (op : Nat) : State :=
  s.startIter (coreNo core) .vector q op fun s r => s.vectorIter (coreNo core) r

/-- `VECTOR_ADD`: an iteration of opcode 0x1 starts: a + b, rounded once. -/
def execVectorAdd (core : Coord) (q : Queue) (s : State) : Host.Outcome State Fault Refusal :=
  .next (s.startVector core q 0x1)

/-- `VECTOR_SUB`: an iteration of opcode 0x2 starts: a − b, rounded once. -/
def execVectorSub (core : Coord) (q : Queue) (s : State) : Host.Outcome State Fault Refusal :=
  .next (s.startVector core q 0x2)

/-- `VECTOR_MUL`: an iteration of opcode 0x3 starts: a × b, rounded once. -/
def execVectorMul (core : Coord) (q : Queue) (s : State) : Host.Outcome State Fault Refusal :=
  .next (s.startVector core q 0x3)

/-- `VECTOR_MAX`: an iteration of opcode 0x4 starts: the maximum of a and b. -/
def execVectorMax (core : Coord) (q : Queue) (s : State) : Host.Outcome State Fault Refusal :=
  .next (s.startVector core q 0x4)

/-- `VECTOR_MIN`: an iteration of opcode 0x5 starts: the minimum of a and b. -/
def execVectorMin (core : Coord) (q : Queue) (s : State) : Host.Outcome State Fault Refusal :=
  .next (s.startVector core q 0x5)

/-- `VECTOR_FMA`: an iteration of opcode 0x6 starts: a × b + c, rounded once in total. -/
def execVectorFma (core : Coord) (q : Queue) (s : State) : Host.Outcome State Fault Refusal :=
  .next (s.startVector core q 0x6)

/-- `SCALE`: an iteration of opcode 0x7 starts: a × IMM. -/
def execScale (core : Coord) (q : Queue) (s : State) : Host.Outcome State Fault Refusal :=
  .next (s.startVector core q 0x7)

/-- `CVT`: an iteration of opcode 0x8 starts: a converted in the mode of the step, SR included (R106). -/
def execCvt (core : Coord) (q : Queue) (s : State) : Host.Outcome State Fault Refusal :=
  .next (s.startVector core q 0x8)

/-- `FILL`: an iteration of opcode 0x9 starts: IMM at every element. -/
def execFill (core : Coord) (q : Queue) (s : State) : Host.Outcome State Fault Refusal :=
  .next (s.startVector core q 0x9)

/-- `RSINIT`: an iteration of opcode 0xa starts: (−∞, +0) in every row of a row-statistics buffer. -/
def execRsinit (core : Coord) (q : Queue) (s : State) : Host.Outcome State Fault Refusal :=
  .next (s.startVector core q 0xa)

/-- `EXP`: an iteration of opcode 0x10 starts: e^a by the fixed function of R686. -/
def execExp (core : Coord) (q : Queue) (s : State) : Host.Outcome State Fault Refusal :=
  .next (s.startVector core q 0x10)

/-- `RSQRT`: an iteration of opcode 0x11 starts: a^−1/2 by the fixed function of R686. -/
def execRsqrt (core : Coord) (q : Queue) (s : State) : Host.Outcome State Fault Refusal :=
  .next (s.startVector core q 0x11)

/-- `RECIP`: an iteration of opcode 0x12 starts: 1/a by the fixed function of R686. -/
def execRecip (core : Coord) (q : Queue) (s : State) : Host.Outcome State Fault Refusal :=
  .next (s.startVector core q 0x12)

/-- `RELU`: an iteration of opcode 0x18 starts: max(a, 0). -/
def execRelu (core : Coord) (q : Queue) (s : State) : Host.Outcome State Fault Refusal :=
  .next (s.startVector core q 0x18)

/-- `LRELU`: an iteration of opcode 0x19 starts: a when positive, otherwise IMM × a. -/
def execLrelu (core : Coord) (q : Queue) (s : State) : Host.Outcome State Fault Refusal :=
  .next (s.startVector core q 0x19)

/-- `SIGMOID`: an iteration of opcode 0x1a starts: 1 / (1 + e^−a). -/
def execSigmoid (core : Coord) (q : Queue) (s : State) : Host.Outcome State Fault Refusal :=
  .next (s.startVector core q 0x1a)

/-- `TANH`: an iteration of opcode 0x1b starts: tanh a. -/
def execTanh (core : Coord) (q : Queue) (s : State) : Host.Outcome State Fault Refusal :=
  .next (s.startVector core q 0x1b)

/-- `SOFTPLUS`: an iteration of opcode 0x1c starts: ln(1 + e^a). -/
def execSoftplus (core : Coord) (q : Queue) (s : State) : Host.Outcome State Fault Refusal :=
  .next (s.startVector core q 0x1c)

/-- `ELU`: an iteration of opcode 0x1d starts: a when positive, otherwise IMM (e^a − 1). -/
def execElu (core : Coord) (q : Queue) (s : State) : Host.Outcome State Fault Refusal :=
  .next (s.startVector core q 0x1d)

/-- `SQRELU`: an iteration of opcode 0x1e starts: max(a, 0)². -/
def execSqrelu (core : Coord) (q : Queue) (s : State) : Host.Outcome State Fault Refusal :=
  .next (s.startVector core q 0x1e)

/-- `GELU`: an iteration of opcode 0x1f starts: the tanh form of GELU (R378). -/
def execGelu (core : Coord) (q : Queue) (s : State) : Host.Outcome State Fault Refusal :=
  .next (s.startVector core q 0x1f)

/-- `SILU`: an iteration of opcode 0x20 starts: a σ(a) (R378). -/
def execSilu (core : Coord) (q : Queue) (s : State) : Host.Outcome State Fault Refusal :=
  .next (s.startVector core q 0x20)

/-- `DOUT_RELU`: an iteration of opcode 0x28 starts: b when y > 0, otherwise 0. -/
def execDoutRelu (core : Coord) (q : Queue) (s : State) : Host.Outcome State Fault Refusal :=
  .next (s.startVector core q 0x28)

/-- `DOUT_LRELU`: an iteration of opcode 0x29 starts: b when y > 0, otherwise b × IMM. -/
def execDoutLrelu (core : Coord) (q : Queue) (s : State) : Host.Outcome State Fault Refusal :=
  .next (s.startVector core q 0x29)

/-- `DOUT_SIGMOID`: an iteration of opcode 0x2a starts: b y (1 − y). -/
def execDoutSigmoid (core : Coord) (q : Queue) (s : State) : Host.Outcome State Fault Refusal :=
  .next (s.startVector core q 0x2a)

/-- `DOUT_TANH`: an iteration of opcode 0x2b starts: b (1 − y²). -/
def execDoutTanh (core : Coord) (q : Queue) (s : State) : Host.Outcome State Fault Refusal :=
  .next (s.startVector core q 0x2b)

/-- `DOUT_SOFTPLUS`: an iteration of opcode 0x2c starts: b (1 − e^−y). -/
def execDoutSoftplus (core : Coord) (q : Queue) (s : State) : Host.Outcome State Fault Refusal :=
  .next (s.startVector core q 0x2c)

/-- `DOUT_ELU`: an iteration of opcode 0x2d starts: b when y > 0, otherwise b (y + IMM). -/
def execDoutElu (core : Coord) (q : Queue) (s : State) : Host.Outcome State Fault Refusal :=
  .next (s.startVector core q 0x2d)

/-- `DOUT_SQRELU`: an iteration of opcode 0x2e starts: b 2√y when y > 0, otherwise 0. -/
def execDoutSqrelu (core : Coord) (q : Queue) (s : State) : Host.Outcome State Fault Refusal :=
  .next (s.startVector core q 0x2e)

/-- `DOUT_EXP`: an iteration of opcode 0x2f starts: b y. -/
def execDoutExp (core : Coord) (q : Queue) (s : State) : Host.Outcome State Fault Refusal :=
  .next (s.startVector core q 0x2f)

/-- `ROWNORM`: an iteration of opcode 0x30 starts: e^(a − mx) / sm of each row (R687). -/
def execRownorm (core : Coord) (q : Queue) (s : State) : Host.Outcome State Fault Refusal :=
  .next (s.startVector core q 0x30)

/-- `SEGSUM`: an iteration of opcode 0x31 starts: the sums of the rows that share an index (R293). -/
def execSegsum (core : Coord) (q : Queue) (s : State) : Host.Outcome State Fault Refusal :=
  .next (s.startVector core q 0x31)

/-- `IADD`: an iteration of opcode 0x38 starts: a + b under SAT or WRAP (R103). -/
def execIadd (core : Coord) (q : Queue) (s : State) : Host.Outcome State Fault Refusal :=
  .next (s.startVector core q 0x38)

/-- `ISUB`: an iteration of opcode 0x39 starts: a − b under SAT or WRAP (R103). -/
def execIsub (core : Coord) (q : Queue) (s : State) : Host.Outcome State Fault Refusal :=
  .next (s.startVector core q 0x39)

/-- `IMUL`: an iteration of opcode 0x3a starts: a × b under SAT or WRAP (R103). -/
def execImul (core : Coord) (q : Queue) (s : State) : Host.Outcome State Fault Refusal :=
  .next (s.startVector core q 0x3a)

/-- `IMAX`: an iteration of opcode 0x3b starts: the larger integer. -/
def execImax (core : Coord) (q : Queue) (s : State) : Host.Outcome State Fault Refusal :=
  .next (s.startVector core q 0x3b)

/-- `IMIN`: an iteration of opcode 0x3c starts: the smaller integer. -/
def execImin (core : Coord) (q : Queue) (s : State) : Host.Outcome State Fault Refusal :=
  .next (s.startVector core q 0x3c)

/-- `VECTOR_ITERATION_COMPLETION`: the iteration in progress has written its results, may set the overflow flag and
releases (R244, R254). -/
def execVectorIterationCompletion (core : Coord) (s : State) : Host.Outcome State Fault Refusal :=
  let n := coreNo core
  .next <|
    match (s.core n).seq.vector.running with
    | none => s
    | some r => (s.finishIter n .vector ⟨some n, coreHall n, s.holderOf n, 5⟩ r).settle n

end Sys2Proof.Machine
end

