-- ==== Sys2Proof/Machine/MoverUnit.lean ====
section
/-! DEFINITION. The mover port: COPY, GATHER and SCATTER with their transforms, conversions, index modes, access checks and
faults (08). -/
namespace Sys2Proof.Machine

/-- Who a mover's access comes from: REQ 0, or 1 on the narrow path. -/
def State.moverWho (s : State) (n : Nat) (narrow : Bool) : Who := ⟨some n, coreHall n, s.holderOf n, b2n narrow⟩

/-- A MOVER step abandoned: recorded in HAL_MOV_FAULT, counted, and its queue stopped (R298). `pos` and `index` are the
list position and the index of DESC_INDEX. -/
def State.moverFault (s : State) (n : Nat) (e : Entry) (code pos index : Nat) : State :=
  let h := coreHall n
  let s := s.setReg (Reg.HAL_MOV_FAULT h) (faultWord n e + 2 ^ 21 * pos + code)
  let s := s.setReg (Reg.HAL_MOV_FAULT_FRAME h) s.frame
  let s := s.setReg (Reg.HAL_MOV_FAULT_INDEX h) index
  let s := s.count (Reg.HAL_MOV_FAULT_COUNT h) 1
  s.stopQueue n e.queue

/-- The bytes of an undefined destination: each written byte becomes a free value, where the requester may write
(R298). -/
def State.scramble (s : State) (w : Who) (ws : List (Nat × Byte)) : State :=
  let ok (k : Nat) : Bool := match spaceOf k with
    | 2 => (s.potCheck w.ctx.toList k true true).isNone
    | 1 => (s.hall (hallOfKey k)).holder == w.ctx
    | _ => true
  let keys := (ws.map (·.1)).filter ok
  let s' := s.writeList (keys.zipIdx.map fun e => (e.1, (Config.freeBits (s.free + e.2)).truncate 8))
  { s' with free := s.free + keys.length }

/-- A mover iteration abandoned for a failed access to key `k`: the memory fault and the mover fault are recorded, and its
destination is undefined. -/
def State.moverAccessFault (s : State) (n : Nat) (r : Run) (w : Who) (code k : Nat) (write : Bool)
    (ws : List (Nat × Byte)) : State :=
  let s := s.scramble w ws
  let tag := if code = Code.MEM_UE then s.ueCtx k else w.ctx
  (s.memFault w code k write w.ctx tag).moverFault n r.entry code 0 0

/-! ### Values of a COPY -/

/-- The operand of a source written to a destination, converted or copied, given the source coordinate of every
destination coordinate (R280 to R283): none stands for a supplied zero. `off` is the place of the operand's first
element in the traversal order of the iteration (R297). A result of INT32 to INT8 outside INT8 is open,
for a MOVER step has no SAT field (log entry 18). -/
def State.moveValues (s : State) (n : Nat) (r : Run) (ds dd : Desc) (walk exts : List Nat) (off : Nat)
    (src : List Nat → Option (List Nat)) : Written :=
  if ds.format = dd.format then s.copyRaw n ds dd walk exts (fun _ => none) src
  else if isNarrowInt ds.format then
    (coords exts).foldl (fun w c =>
      let v := match src c with
        | some sc => s.expandCode n ds dd.nanOpt sc (s.rawAt n ds sc)
        | none => 0
      { w with writes := s.putElem w.writes n dd (fullCoord walk c) v }) {}
  else
    let mode := if narrows ds.format dd.format then stMode r.st dd else 0
    let base := s.drawAt n 2 r
    let val (c : List Nat) : FVal := match src c with
      | some sc => s.valAt n ds sc
      | none => .zero
    let sr (i : Nat) : Nat :=
      if mode = 2 then srDraw r.seed.toNat r.frame (srId n 2 r.entry.queue) (base + 8 * ((off + i) / 64)) ((off + i) % 64) else 0
    let free (c : List Nat) : Option Nat :=
      if ds.format = 5 ∧ dd.format = 4 ∧ ((val c).toInt < -128 ∨ 127 < (val c).toInt) then
        some (Config.freeBits (s.free + off + linear exts c)).toNat else none
    s.writeOperand n dd walk exts ds.format mode true sr free val

/-- Whether a mover iteration draws random values, and how many calls. -/
def moverCalls (r : Run) (ds dd : Desc) (count : Nat) : Nat :=
  if stDraws r.st ds.format dd then 8 * ceilDiv count 64 else 0

/-- The start of an iteration that reads `ranges` and will write `w`: the checks of its reads decide whether it goes on
(R298, R316). -/
def State.moverRead (s : State) (n : Nat) (r : Run) (groups : List (Bool × List (Nat × Nat))) (w : Written)
    (calls count : Nat) : State × Option Run :=
  let go := groups.foldl (fun (acc : Option (Nat × Nat × Bool) × State) g =>
    if acc.1.isSome then acc
    else
      let (f, s) := acc.2.accessAll (s.moverWho n g.1) g.2 false g.1
      (f.map fun x => (x.1, x.2, g.1), s)) (none, s)
  match go with
  | (some (code, k, narrow), s) => (s.moverAccessFault n r (s.moverWho n narrow) code k false w.writes, none)
  | (none, s) =>
    ({ (s.drawMore n 2 r calls) with free := s.free + count }, some { r with writes := w.writes, overflow := w.overflow })

/-- A COPY iteration (R278). -/
def State.copyIter (s : State) (n : Nat) (r : Run) : State × Option Run :=
  let (dd, ds) := (r.desc 0, r.desc 1)
  let k := stRank r.st
  let exts := (List.range k).map dd.extent
  let swalk := ds.walk k r.ix
  let from_ (c : List Nat) : List Nat := ds.permuted (fullCoord swalk c)
  let src (c : List Nat) : Option (List Nat) :=
    let sc := from_ c
    if (ds.bitAt sc).isSome then some sc else none
  let w := s.moveValues n r ds dd (dd.walk k r.ix) exts 0 src
  let reads := ds.ranges n (((coords exts).map from_).filter fun c => (ds.bitAt c).isSome)
  s.moverRead n r [(false, reads)] w (moverCalls r ds dd (dd.operandCount k)) (dd.operandCount k)

/-! ### Gather and scatter (R288 to R292) -/

/-- An index resolved against an extent: none when it is null or skipped, with whether it counts as a zero row, or the
error (Table 8.5). -/
inductive Resolved where
  | row (i : Nat)
  | zero (counted : Bool)
  | bad
deriving DecidableEq, Repr

def resolveIdx (mode x raw : Nat) : Resolved :=
  if raw = 0x80000000 then .zero false
  else
    let i := sext 32 raw
    if 0 ≤ i ∧ i < x then .row i.toNat
    else if mode = 1 then .zero true
    else if mode = 2 ∧ -(x : Int) ≤ i ∧ i < 0 then .row (i + x).toNat
    else .bad

/-- Whether a row in HBM travels on the narrow path: its bytes touch at most four aligned 32-byte sectors (R294). -/
def rowNarrow (d : Desc) (rs : List (Nat × Nat)) : Bool := d.space == 2 && (touched 32 rs).length ≤ 4

/-- The indices of an iteration, as read (R289). -/
def State.indexList (s : State) (n : Nat) (r : Run) : List Nat :=
  let dx := r.desc 2
  (List.range (dx.extent 0)).map fun j => s.rawAt n dx (dx.permuted (fullCoord (dx.walk 1 r.ix) [j]))

/-- The bytes of the destination of an iteration whose indices are not known: the rows of a GATHER, and for a SCATTER the whole
operand that it indexes (R298). -/
def Run.destination (r : Run) (n : Nat) (gather : Bool) : List (Nat × Byte) :=
  let dd := r.desc 0
  let k := stRank r.st
  let exts := (List.range (k - 1)).map dd.extent ++ [if gather then (r.desc 2).extent 0 else dd.extent (k - 1)]
  (dd.ranges n ((coords exts).map (fullCoord (dd.walk k r.ix)))).flatMap fun e => (List.range e.2).map fun i => (e.1 + i, 0)

/-- A GATHER or a SCATTER iteration. The index list is read and resolved in full before any row is read (R287, R291). -/
def State.indexedIter (s : State) (n : Nat) (gather : Bool) (r : Run) : State × Option Run :=
  let (dd, ds, dx) := (r.desc 0, r.desc 1, r.desc 2)
  let k := stRank r.st
  let indexed := if gather then ds else dd
  let x := indexed.opExt (k - 1)
  let raws := s.indexList n r
  let res := raws.map (resolveIdx indexed.idxMode x)
  let xr := dx.ranges n ((List.range (dx.extent 0)).map fun j => dx.permuted (fullCoord (dx.walk 1 r.ix) [j]))
  match s.accessAll (s.moverWho n false) xr false false with
  | (some (code, key), s) => (s.moverAccessFault n r (s.moverWho n false) code key false (r.destination n gather), none)
  | (none, s) =>
    match (res.zip raws).zipIdx.find? fun e => e.1.1 == .bad with
    | some e =>
      let s := s.moverFault n r.entry Code.DESC_INDEX e.2 e.1.2
      (s.raise { src := 5, hall := coreHall n, ctx := s.holderOf n, code := Code.DESC_INDEX, x := coreX n, y := coreY n },
        none)
    | none =>
      let counted := (res.filter fun y => y == .zero true).length
      let s := s.count (Reg.HAL_IDX_ZERO_COUNT (coreHall n)) counted
      let rowExts := (List.range (k - 1)).map (fun i => (if gather then dd else ds).opExt i)
      let swalk := ds.walk k r.ix
      let dwalk := dd.walk k r.ix
      let sAt (c : List Nat) : List Nat := ds.permuted (fullCoord swalk c)
      let list := res.zipIdx
      if gather then
        let src (c : List Nat) : Option (List Nat) :=
          match res[c.getD (k - 1) 0]? with
          | some (.row i) => some (sAt (c.take (k - 1) ++ [i]))
          | _ => none
        let exts := rowExts ++ [raws.length]
        let w := s.moveValues n r ds dd dwalk exts 0 src
        let groups := list.filterMap fun e => match e.1 with
          | .row i =>
            let rs := ds.ranges n ((coords rowExts).map fun c => sAt (c ++ [i]))
            some (rowNarrow ds (rs.filter fun t => t.1 < mezBase), rs)
          | _ => none
        let count := exts.foldl (· * ·) 1
        s.moverRead n r groups w (moverCalls r ds dd count) count
      else
        let per := rowExts.foldl (· * ·) 1
        let w := list.foldl (fun (acc : Written) e => match e.1 with
          | .row i =>
            let one := s.moveValues n r ds dd (dwalk.set (k - 1) i) rowExts (per * e.2) fun c => some (sAt (c ++ [e.2]))
            { acc with writes := acc.writes ++ one.writes, overflow := acc.overflow || one.overflow }
          | _ => acc) {}
        let written := (list.filter fun e => match e.1 with | .row _ => true | _ => false).length
        let reads := list.filterMap fun e => match e.1 with
          | .row _ => some (ds.ranges n ((coords rowExts).map fun c => sAt (c ++ [e.2])))
          | _ => none
        let count := per * raws.length
        s.moverRead n { r with rows := written } (reads.map ((false, ·))) w (moverCalls r ds dd count) count

/-- `MOVER_COPY`: a COPY iteration starts: it reads, transforms and converts its source (R278 to R287). -/
def execMoverCopy (core : Coord) (q : Queue) (s : State) : Host.Outcome State Fault Refusal :=
  .next (s.startIter (coreNo core) .mover q 1 fun s r => s.copyIter (coreNo core) r)

/-- `GATHER`: a GATHER iteration starts: it resolves its indices and reads the rows that they name (R288 to R292). -/
def execGather (core : Coord) (q : Queue) (s : State) : Host.Outcome State Fault Refusal :=
  .next (s.startIter (coreNo core) .mover q 2 fun s r => s.indexedIter (coreNo core) true r)

/-- `SCATTER`: a SCATTER iteration starts: it resolves its indices and reads its rows, to be written in list order
(R288 to R292). -/
def execScatter (core : Coord) (q : Queue) (s : State) : Host.Outcome State Fault Refusal :=
  .next (s.startIter (coreNo core) .mover q 3 fun s r => s.indexedIter (coreNo core) false r)

/-- A list cut into pieces of `n`. -/
def chunksOf {α : Type} (n : Nat) : Nat → List α → List (List α)
  | 0, _ => []
  | k + 1, l => l.take n :: chunksOf n k (l.drop n)

/-- The groups of a mover's writes, with whether each travels on the narrow path: the rows of a SCATTER, else one group
(R294). -/
def moverGroups (r : Run) : List (Bool × List (Nat × Nat)) :=
  let ranges := r.writes.map fun w => (w.1, 1)
  if stOp r.st = 3 ∧ 0 < r.rows then
    (chunksOf (ranges.length / r.rows) r.rows ranges).map fun g => (rowNarrow (r.desc 0) (g.filter fun t => t.1 < mezBase), g)
  else [(false, ranges)]

/-- `MOVER_ITERATION_COMPLETION`: the writes of the iteration in progress become visible, checked against the ownership of
their pages; it may set the overflow flag and releases. A write that fails its check abandons the step (R254, R296, R298). -/
def execMoverIterationCompletion (core : Coord) (s : State) : Host.Outcome State Fault Refusal :=
  let n := coreNo core
  .next <|
    match (s.core n).seq.mover.running with
    | none => s
    | some r =>
      let go := (moverGroups r).foldl (fun (acc : Option (Nat × Nat × Bool) × State) g =>
        if acc.1.isSome then acc
        else
          let (f, s) := acc.2.accessAll (s.moverWho n g.1) g.2 true g.1
          (f.map fun x => (x.1, x.2, g.1), s))
        (none, s)
      match go with
      | (some (code, k, narrow), s) =>
        let s := s.moverAccessFault n r (s.moverWho n narrow) code k true r.writes
        (s.onSeq n fun q => q.setUnit .mover (q.mover.setOf r.entry.queue none)).settle n
      | (none, s) => (s.finishIter n .mover (s.moverWho n false) r).settle n

end Sys2Proof.Machine
end

