-- ==== Sys2Proof/Machine/Sequencer.lean ====
section
/-! DEFINITION. The sequencer: the start of tables, marks, waits, the end of a frame, table loads and patches (07 R235 to R262,
06 R224 to R228), and what stops a hall's sequencers (R77, R143). -/
namespace Sys2Proof.Machine

/-! ### Starting a table (R63, R226, R257) -/

/-- A fault of a table that ended FAILED where a queue needs it (R225, R226). -/
def State.tableFailed (s : State) (n slot : Nat) : State :=
  s.raise { src := 3, hall := coreHall n, ctx := s.holderOf n, code := (s.core n).seq.tblErr % 65536, inst := slot
            x := coreX n, y := coreY n }

/-- A queue with its table at step 0. -/
def SeqQueue.enter (x : SeqQueue) (slot : Nat) : SeqQueue :=
  { x with run := some slot, pos := 0, loops := [], endDispatched := false, stopped := false, armed := false, due := false }

/-- A queue starts its bound table. With no binding it runs nothing, which for a main queue counts as reaching FRAME_END;
a bound slot that is FAILED takes the binding away (R226, R257). -/
def State.startQueue (s : State) (n : Nat) (k : Queue) : State :=
  let q := (s.core n).seq
  let x := q.queue k
  match x.bind with
  | none => s.onSeq n fun q =>
      let q := q.onQueue k fun x => { x with armed := false, due := false, run := none }
      if k = .main then { q with reachedEnd := true } else q
  | some (slot, _) =>
    match (q.slot slot).state with
    | .failed | .empty =>
      (s.onSeq n fun q => q.onQueue k fun x =>
        { x with bind := none, run := none, armed := false, due := false, stopped := true }).tableFailed n slot
    | _ => (s.onSeq n fun q => q.onQueue k (·.enter slot)).settle n

/-- The start time of a queue has come: it starts its table, or, while the main queue still runs an earlier frame's table and has
not started the one armed for this frame, it is due (R75). -/
def State.queueDue (s : State) (n : Nat) (k : Queue) : State :=
  let q := (s.core n).seq
  if ¬ (q.queue k).armed then s
  else if q.main.run.isSome ∧ q.main.armed then s.onSeq n fun q => q.onQueue k fun x => { x with due := true }
  else s.startQueue n k

/-- `GALLERY_START`: at the gallery's start after a tick, once its hall's step 9 has completed, the idle-fill queues start
their bound tables and so do the main queues whose offset is 0 (R63, R71, R257). -/
def execGalleryStart (g : BitVec 8) (s : State) : Host.Outcome State Fault Refusal :=
  let h := g.toNat / 10
  let j := g.toNat % 10
  let hall := s.hall h
  .next <|
    if 160 ≤ g.toNat ∨ ¬ s.fr.ticked ∨ hall.stage ≠ .done ∨ s.inStep h ∨ hall.started.getLsbD j ∨ hall.holder.isNone then s
    else
      let s := s.onHall h fun x =>
        { x with started := x.started ||| (1#10 <<< j), galleryStart := mapSet 0 x.galleryStart j s.cycles }
      s.each ((List.range 25).map (coreAt g.toNat)) fun s n =>
        let s := match (s.core n).seq.main.bind with
          | some (_, 0) => s.queueDue n .main
          | none => s.queueDue n .main
          | _ => s
        s.queueDue n .idle

/-- `MAIN_QUEUE_START`: the offset of a main queue's binding after its gallery's start has passed (R257). -/
def execMainQueueStart (core : Coord) (s : State) : Host.Outcome State Fault Refusal :=
  let n := coreNo core
  .next <|
    if (s.hall (coreHall n)).started.getLsbD (coreGallery n % 10) then s.queueDue n .main else s

/-! ### Marks and waits (R250, R252, R259) -/

/-- The queue of a core moves to its next step. -/
def Seq.advance (q : Seq) (k : Queue) : Seq := q.onQueue k fun x => { x with pos := x.pos + 1 }

/-- `SYNC_WAIT`: the SYNC WAIT step at the front of a queue, once its wait holds: it consumes, releases as its REL fields
direct, and dispatch goes on (R252). -/
def execSyncWait (core : Coord) (q : Queue) (s : State) : Host.Outcome State Fault Refusal :=
  let n := coreNo core
  let sq := (s.core n).seq
  .next <|
    match sq.front q with
    | some (_, st) =>
      if stIsWait st ∧ sq.waitHolds st ∧ ¬ sq.outranked (syncRank q) st then
        (s.onSeq n fun x =>
          let x := x.consume st
          let x := if stRelEn st then x.release (stRelTc st) else x
          { x.advance q with progress := true }).settle n
      else s
    | none => s

/-- `FRAME_END`: the FRAME_END mark at the front of a queue is dispatched. On the main queue it ends dispatch for the
frame and stops the idle-fill queue (R258, R261). -/
def execFrameEnd (core : Coord) (q : Queue) (s : State) : Host.Outcome State Fault Refusal :=
  let n := coreNo core
  .next <|
    match (s.core n).seq.front q with
    | some (_, st) =>
      if stIsFrameEnd st then
        s.onSeq n fun x =>
          let x := (x.advance q).onQueue q fun y => { y with endDispatched := true }
          if q = .main then x.stopIdle else x.idleDone
      else s
    | none => s

/-- Whether the main queue has reached FRAME_END (R258). -/
def Seq.endReached (q : Seq) : Bool :=
  q.main.endDispatched && q.main.run.isSome
  && (q.units.all fun u => u.cur.isNone && u.running.isNone && u.overlap.isNone
      && !u.waiting.any fun e => decide (e.queue = .main))
  && q.signals.isEmpty && q.ramp = .idle

/-- What the start of a frame's tables finds cleared: the token counters (R227, R256). -/
def Seq.clearTokens (q : Seq) : Seq := { q with tok := [] }

/-- `FRAME_END_REACHED`: the main queue of a core reaches FRAME_END. A core that was still running when step 9 armed its
queues clears its token counters and starts the table armed for the frame in progress, if its start time has passed
(R75, R256, R258). -/
def execFrameEndReached (core : Coord) (s : State) : Host.Outcome State Fault Refusal :=
  let n := coreNo core
  .next <|
    if (s.core n).seq.endReached then
      let s := s.onSeq n fun q =>
        { q with main := { q.main with run := none, endDispatched := false, loops := [] }, reachedEnd := true, progress := true }
      let q := (s.core n).seq
      if q.main.armed then
        let s := s.onSeq n fun q => { q.clearTokens with reachedEnd := q.main.bind.isNone }
        let s := if q.main.due then s.startQueue n .main else s
        if q.idle.due then s.startQueue n .idle else s
      else s
    else s

/-- `BRANCH`: the BRANCH mark at the front of a queue. A pending selection whose slot is READY is consumed and dispatch
goes on at its step 0; one whose slot is FAILED stops the queue; otherwise the queue waits at the mark (R225, R259). -/
def execBranch (core : Coord) (q : Queue) (s : State) : Host.Outcome State Fault Refusal :=
  let n := coreNo core
  let sq := (s.core n).seq
  .next <|
    match sq.front q, (sq.queue q).sel with
    | some (_, st), some slot =>
      if ¬ stIsBranch st then s
      else match (sq.slot slot).state with
        | .ready =>
          if (sq.slot slot).patches ≠ [] then s
          else (s.onSeq n fun x => x.onQueue q fun y => { y with sel := none, run := some slot, pos := 0, loops := [] }).settle n
        | .loading => s
        | _ => (s.onSeq n fun x => x.onQueue q fun y => { y with sel := none, stopped := true }).tableFailed n slot
    | _, _ => s

/-- `LOOP`: the LOOP mark at the front of a queue opens a loop of COUNT + 1 passes (R250). -/
def execLoop (core : Coord) (q : Queue) (s : State) : Host.Outcome State Fault Refusal :=
  let n := coreNo core
  .next <|
    match (s.core n).seq.front q with
    | some (_, st) =>
      if stIsLoop st then
        (s.onSeq n fun x => x.onQueue q fun y =>
          { y with pos := y.pos + 1, loops := ⟨y.pos + 1, stCount st, 0⟩ :: y.loops }).settle n
      else s
    | none => s

/-- `ENDLOOP`: the ENDLOOP mark at the front of a queue begins the next pass of the innermost loop, or closes it (R250). -/
def execEndloop (core : Coord) (q : Queue) (s : State) : Host.Outcome State Fault Refusal :=
  let n := coreNo core
  .next <|
    match (s.core n).seq.front q with
    | some (_, st) =>
      if stIsEndloop st then
        (s.onSeq n fun x => x.onQueue q fun y =>
          match y.loops with
          | [] => { y with pos := y.pos + 1 }
          | f :: rest =>
            if f.pass < f.count then { y with pos := f.body, loops := { f with pass := f.pass + 1 } :: rest }
            else { y with pos := y.pos + 1, loops := rest }).settle n
      else s
    | none => s

/-! ### Loads and patches (R235 to R238, R228) -/

/-- The number of steps that a slot takes of the table store: of a load in progress, those of its image. -/
def Slot.size (t : Slot) : Nat :=
  match t.state with
  | .loading => ((Desc.ofBits t.src).extent 0) / 4
  | .ready => t.steps.length
  | _ => 0

/-- Whether a descriptor is one of a table image (R236). -/
def tableShapeOk (d : Desc) : Bool :=
  d.format = 5 && d.rank = 1 && d.strideOf 0 = 1 && d.extent 0 % 4 = 0 && d.extent 0 / 4 ≤ 4096

/-- The table shadow of a core's context on its hall is written: which of its bytes, and with what, the manual does not lay out (R263,
log entry 47). -/
def State.shadowWritten (s : State) (n : Nat) : State :=
  match s.holderOf n with
  | none => s
  | some c => s.each ((s.ctx c).reserves.filter (·.hall == coreHall n)) fun s r => s.forget (65536 * r.shadow) (65536 * (r.shadow + 250))

/-- A TLOAD refused: the slot FAILED and the code in tbl_err; a queue that waits for the slot acts on it (R225, R226). -/
def State.loadFailed (s : State) (n slot code : Nat) : State :=
  let s := s.onSeq n fun q => { q.setSlot slot { state := .failed } with tblErr := 65536 * slot + code }
  s.each [Queue.main, Queue.idle] fun s k =>
    let x := (s.core n).seq.queue k
    if x.run = some slot ∧ x.pos = 0 then
      (s.onSeq n fun q => q.onQueue k fun x => { x with bind := none, run := none, stopped := true }).tableFailed n slot
    else s

/-- `TLOAD_COMPLETE`: the image of a slot in state LOADING has arrived: its steps are validated with the descriptor
registers as they stood at the TLOAD, the slot becomes READY or FAILED, and a validated table goes to the shadow (R237, R238, R263,
R688). -/
def execTloadComplete (core : Coord) (slot : BitVec 4) (s : State) : Host.Outcome State Fault Refusal :=
  let n := coreNo core
  let i := slot.toNat
  let t := (s.core n).seq.slot i
  .next <|
    if t.state ≠ .loading then s
    else
      let d := Desc.ofBits t.src
      let key := spaceKey n d.space + d.base
      let count := d.extent 0 / 4
      let who : Who := ⟨some n, coreHall n, s.holderOf n, 0⟩
      match s.accessAll who [(key, 16 * count)] false false with
      | (some (code, k), s) =>
        let tag := if code = Code.MEM_UE then s.ueCtx k else who.ctx
        (s.memFault who code k false who.ctx tag).loadFailed n i code
      | (none, s) =>
        let steps := (List.range count).map fun j => s.natAt (key + 16 * j) 16
        let get (r : Nat) : Option Desc :=
          let x := mapGet {} t.regs r
          if x.valid then some (Desc.ofBits x.bits) else none
        match tableCheck n get count 0 0 steps with
        | some c => s.loadFailed n i c
        | none =>
          ((s.onSeq n fun q => q.setSlot i { state := .ready, steps := steps.map (BitVec.ofNat 128) }).settle n).shadowWritten n

/-- `TPATCH_COMPLETE`: the oldest patch in progress of a slot takes effect, and its step goes to the shadow (R228, R262, R263). -/
def execTpatchComplete (core : Coord) (slot : BitVec 4) (s : State) : Host.Outcome State Fault Refusal :=
  let n := coreNo core
  let i := slot.toNat
  let t := (s.core n).seq.slot i
  .next <|
    match t.patches with
    | [] => s
    | p :: rest =>
      let old := ((t.steps[p.step]?).getD 0).toNat
      let new := match patchBits p.field old with
        | some (hi, lo) => setBits old hi lo p.value.toNat
        | none => old
      (s.onSeq n fun q => q.setSlot i { t with patches := rest, steps := t.steps.set p.step (BitVec.ofNat 128 new) }).settle n
        |>.shadowWritten n

/-! ### Stopping a hall's sequencers (R77, R143) -/

/-- The schedule cycles after which the rows of an iteration are written, in the order of the drains (R133). -/
def Run.rowTimes (r : Run) : List Nat :=
  (r.timeline.filter (·.2.ends)).flatMap fun e => (List.range e.2.m).map fun i => e.2.rowDone e.1 i

/-- The schedule cycles after which the block-passes of an iteration are merged. -/
def Run.mergeTimes (r : Run) : List Nat := (r.timeline.filter (·.2.ends)).map fun e => e.1 + e.2.m + e.2.x

/-- An array unit that is not idle begins a ramp-down from its level, in an open cycle of the iteration in progress: the rows
drained so far are written, the block-passes merged so far too, the wide-buffer entries of the block-pass in flight and the
accumulators are undefined, and the cycles and rows up to that cycle count (R143, R148, R174, log entry 49). -/
def State.cutArray (s : State) (n : Nat) : State :=
  let q := (s.core n).seq
  match q.ramp, q.array.running with
  | .active top duty, some r =>
    let c := q.cycle + s.freeValue.toNat % (max 1 (q.lastCycle top duty - q.cycle))
    let t := schedAt duty top c
    let s := s.drawn
    let who : Who := ⟨some n, coreHall n, s.holderOf n, 4⟩
    let done := if stAcc r.st = 0 then 0 else (r.mergeTimes.filter (· ≤ t)).length
    let merged := (r.merges.take done).flatten
    let rows := ((r.drains.take (r.rowTimes.filter (· ≤ t)).length)).flatten
    let s := (s.storeFor { who with req := 2 } merged).storeFor who rows
    let s := s.scramble { who with req := 2 } (r.merges.getD done [])
    { s with free := s.free + 0x4000 }.onSeq n fun q =>
      let q := (q.countTo top duty c).holdWide (stAcc r.st) merged
      { q with array := {}, ramp := q.ramp.fall c, acc := { undef := some s.free } }
  | _, _ => s.onSeq n fun q => { q with array := {}, ramp := q.ramp.fall q.cycle }

/-- The sequencers of a core stop issuing: an array unit that is not idle begins a ramp-down, the iterations in progress of the
vector unit and the mover end their steps, and the acknowledgements of tiles and signals are no longer awaited. -/
def State.stopCore (s : State) (n : Nat) : State :=
  let cut (x : UnitState) : UnitState := { x with waiting := [], cur := (x.cur.filter (·.busy)).map ({ · with cut := true }) }
  (s.cutArray n).onSeq n fun q =>
    let q := q.stopIdle
    { q with
      main := { q.main with stopped := true }
      array := {}, vector := cut q.vector, mover := cut q.mover, mesh := {}, signals := [] }

end Sys2Proof.Machine
end

