-- ==== Sys2Proof/Machine/CtxOps.lean ====
section
/-! DEFINITION. What commands and landings do to contexts: the placement of pages, eviction, the states of contexts, and what
ends a context's work (13, 09 R319 to R321, 14 R489). -/
namespace Sys2Proof.Machine

/-- A context enters a state; CTX_CHANGE_FRAME shows the frame (R426). -/
def State.setCtx (s : State) (c : Nat) (st : CtxState) : State :=
  if (s.ctx c).state = st then s else s.onCtx c fun x => { x with state := st, changeFrame := s.frame }

/-- The last code recorded for a context (Table 13.13). -/
def State.ctxCode (s : State) (c code : Nat) : State := s.onCtx c fun x => { x with lastCode := code }

/-- Records a code of Table 17.9. -/
def State.rstCode (s : State) (code : Nat) : State := s.setFld Reg.RST_STATUS 31 16 code

/-- Contexts that name a hall out of service are noted (R578). -/
def State.noteOffline (s : State) (l : List Nat) : State :=
  s.each (l.filter fun c => (bitsOf (s.ctx c).named 16).any fun h => !s.online h) fun s c =>
    (s.ctxCode c Code.HALL_OFFLINE).rstCode Code.HALL_OFFLINE

/-- The halls that a context holds, one being handed over included, in ascending order. -/
def State.heldBy (s : State) (c : Nat) : List Nat :=
  (List.range 16).filter fun h => (s.hall h).holder == some c || (s.hall h).incoming == some c

/-- Whether a context is late at the landing in progress (R76). -/
def State.ctxLate (s : State) (c : Nat) : Bool := (s.heldBy c).any fun h => (s.hall h).late

/-- The halls that a context names, in ascending order. -/
def Ctx.hallList (x : Ctx) : List Nat := bitsOf x.named 16

/-- A context that loses halls counts it (CTX_PREEMPTS, Table 13.13). -/
def State.countLoss (s : State) (c : Nat) (halls : List Nat) : State :=
  if halls = [] then s else s.onCtx c fun x => { x with preempts := min (x.preempts + 1) 0xFFFFFFFF }

/-! ### Versions (R442) -/

def Ctx.ver (x : Ctx) (model slot : Nat) : Version := mapGet {} x.models (2 * model + slot)
def Ctx.setVer (x : Ctx) (model slot : Nat) (v : Version) : Ctx :=
  { x with models := mapSet {} x.models (2 * model + slot) v }
def State.onVer (s : State) (c model slot : Nat) (f : Version → Version) : State :=
  s.onCtx c fun x => x.setVer model slot (f (x.ver model slot))

/-- The slot of a model's ACTIVE version. -/
def Ctx.activeSlot (x : Ctx) (model : Nat) : Option Nat := [0, 1].find? fun k => (x.ver model k).state == .active

/-- Whether a version's image is resident: it has a range. -/
def Version.resident (v : Version) : Bool := v.state != .retired && v.evicted.isNone

/-- The resident images of the device (R442). -/
def State.images (s : State) : Nat :=
  s.ctxs.foldl (fun n e => n + (e.2.models.filter fun m => m.2.resident).length) 0

/-! ### Placement (R307, R431) -/

/-- Whether `n` pages from page `p` on lie in one region outside its reserved area, all free. -/
def State.runFree (s : State) (p n : Nat) : Bool :=
  p / 2 ^ 20 == (p + n - 1) / 2 ^ 20 && (p + n - 1) % 2 ^ 20 < 0xFFE00
    && !s.mem.pot.any fun r => r.first < p + n && p < r.first + r.count

/-- A free run of `n` pages of a region that is online. Which one is open. -/
def State.findRun (s : State) (region n : Nat) : Option Nat × State :=
  if n = 0 ∨ 0xFFE00 < n ∨ ¬ s.regionOnline region then (none, s)
  else
    let lo := 2 ^ 20 * region
    match (lo :: (s.mem.pot.map fun r => r.first + r.count)).find? fun p => p / 2 ^ 20 == region && s.runFree p n with
    | none => (none, s)
    | some p =>
      let cand := lo + s.freeValue.toNat % (0xFFE00 - n + 1)
      (some (if s.runFree cand n then cand else p), s.drawn)

/-- The first region of a list with a free run. -/
def State.findIn (s : State) : List Nat → Nat → Option Nat × State
  | [], _ => (none, s)
  | r :: rest, n => match s.findRun r n with
    | (some p, s) => (some p, s)
    | (none, s) => s.findIn rest n

/-- Pages given to a context as a run with one entry, not yet zeroed (R319). -/
def State.takeRun (s : State) (c p n kind : Nat) (rd wr : Bool) (tier : Nat) (pinned : Bool) : State :=
  s.setPot p n (potWord wr rd tier kind false pinned c (s.ctx c).epoch p)

/-- A run of pages zeroed before its entries stand (R320). -/
def State.zeroPages (s : State) (p n : Nat) : State := s.zeroRange (65536 * p) (65536 * (p + n))

/-- A range added to the end of a context's list (R307). -/
def State.addRange (s : State) (c p n kind : Nat) (rd wr : Bool) (tier : Nat) (pinned : Bool) : State :=
  ((s.zeroPages p n).takeRun c p n kind rd wr tier pinned).onCtx c fun x =>
    { x with ranges := x.ranges ++ [⟨p, n, kind, rd, wr⟩] }

/-- A range of a context removed; its pages are free (R307, R320). -/
def State.dropRange (s : State) (c p : Nat) : State :=
  match (s.ctx c).ranges.find? (·.base == p) with
  | some r => (s.setPot p r.pages 0).onCtx c fun x => { x with ranges := x.ranges.filter (·.base ≠ p) }
  | none => s

/-- The range of a context that contains `n` bytes at an address. -/
def Ctx.rangeAt (x : Ctx) (a n : Nat) : Option Range :=
  x.ranges.find? fun r => 65536 * r.base ≤ a && a + n ≤ 65536 * (r.base + r.pages)

/-! ### Eviction (R446, R447) -/

/-- Where an image of `n` pages can go in the eviction area: the lowest place that no evicted image covers. -/
def State.evictSpot (s : State) (n : Nat) : Option Nat :=
  match s.pcie.evictArea with
  | none => none
  | some (a, bytes) =>
    let used := s.ctxs.flatMap fun e => e.2.models.filterMap fun m => m.2.evicted.map fun o => (o, 65536 * m.2.pages)
    let len := 65536 * n
    (a :: used.map fun u => u.1 + u.2).find? fun p =>
      a ≤ p && p + len ≤ a + bytes && !used.any fun u => u.1 < p + len && p < u.1 + u.2

/-- The candidates for eviction, as priority, frame of the owner's last run, context, model and slot. -/
def State.evictable (s : State) : List (Nat × Nat × Nat × Nat × Nat) :=
  if ¬ s.feature featEvict ∨ ¬ s.pcie.linkUp then []
  else s.ctxs.flatMap fun e =>
    if e.2.state = .ready ∨ e.2.state = .loading then
      e.2.models.filterMap fun m =>
        let v := m.2
        if ¬ v.pin ∧ v.evicted.isNone ∧ v.state ∈ [VerState.active, .draining, .verified] ∧ (s.evictSpot v.pages).isSome then
          some (e.2.prio, e.2.lastRun, e.1, m.1 / 2, m.1 % 2)
        else none
    else []

/-- The lowest of candidates, in the order of R446; of one context's images the lowest handle and slot. -/
def evictFirst : List (Nat × Nat × Nat × Nat × Nat) → Option (Nat × Nat × Nat × Nat × Nat)
  | [] => none
  | a :: l => match evictFirst l with
    | none => some a
    | some b =>
      let le (x y : List Nat) : Bool := ((x.zip y).find? fun p => p.1 != p.2).elim true fun p => decide (p.1 < p.2)
      some (if le [a.1, a.2.1, a.2.2.1, a.2.2.2.1, a.2.2.2.2] [b.1, b.2.1, b.2.2.1, b.2.2.2.1, b.2.2.2.2] then a else b)

/-- The next candidate evicted: its image goes to the eviction area and its range is freed (R447). -/
def State.evictOne (s : State) : Option State :=
  match evictFirst s.evictable with
  | none => none
  | some (_, _, c, m, k) =>
    let v := (s.ctx c).ver m k
    (s.evictSpot v.pages).map fun o =>
      let s := s.meetErrors (65536 * v.base) (65536 * v.pages)
      let s := s.emit (.hostWrite o (s.bytesAt (65536 * v.base) (65536 * v.pages)))
      ((s.dropRange c v.base).onVer c m k fun v => { v with evicted := some o, recheckFailed := none }).count Reg.CTX_EVICTIONS 1

/-- A free run in one of some regions, with evictions until there is one or no candidate is left (R431, R446). -/
def State.placeIn (s : State) (regions : List Nat) (n : Nat) : Nat → Option Nat × State
  | 0 => s.findIn regions n
  | fuel + 1 => match s.findIn regions n with
    | (some p, s) => (some p, s)
    | (none, s) => match s.evictOne with
      | some s => s.placeIn regions n fuel
      | none => (none, s)

/-- Placement with as many evictions as there can be images (R442). -/
def State.place (s : State) (regions : List Nat) (n : Nat) : Option Nat × State := s.placeIn regions n 256

/-- Several runs placed and taken, none of them zeroed; all or none stay. Each is given as its regions, its pages and
what its entry says. -/
def State.takeAll (s : State) (c : Nat) : List (List Nat × Nat × Nat × Bool × Bool) → List (Nat × Nat) →
    Option (List (Nat × Nat)) × State
  | [], got => (some got.reverse, s)
  | (regions, n, kind, rd, wr) :: rest, got => match s.place regions n with
    | (some p, s) => (s.takeRun c p n kind rd wr 0 false).takeAll c rest ((p, n) :: got)
    | (none, s) => (none, s.each got fun s g => s.setPot g.1 g.2 0)

/-- The reservations of R429 for one hall. -/
def reserveRuns (h : Nat) : List (List Nat × Nat × Nat × Bool × Bool) :=
  [([h], 1152, 4, false, false), ([h], 250, 5, false, false)]

/-- Pairs of consecutive places read as the reservations of halls. -/
def pairReserves : List Nat → List (Nat × Nat) → List Reserve
  | h :: hs, a :: b :: rest => ⟨h, a.1, b.1⟩ :: pairReserves hs rest
  | _, _ => []

/-- The reservations of a hall freed. -/
def State.dropReserve (s : State) (c h : Nat) : State :=
  s.each ((s.ctx c).reserves.filter (·.hall == h)) fun s r =>
    ((s.setPot r.save 1152 0).setPot r.shadow 250 0).onCtx c fun x => { x with reserves := x.reserves.filter (· ≠ r) }

/-! ### Commands that do not act (R488, R489) -/

/-- A load of a context ended: its staging range is freed (R451). -/
def State.endLoad (s : State) (c : Nat) (l : Load) : State :=
  (s.dropRange c l.staging).onCtx c fun x => { x with loads := x.loads.filter (· ≠ l) }

/-- The reservations of halls that a context neither names nor waits to be given are freed (R437). -/
def State.trimReserves (s : State) (c : Nat) : State :=
  let x := s.ctx c
  let mask := x.reqs.foldl (fun m r => match r.kind with | .hallSet k => m ||| k | _ => m) x.named
  s.each ((x.reserves.map (·.hall)).filter fun h => !bit mask h) fun s h => s.dropReserve c h

/-- What an accepted command has asked for and not yet done is withdrawn. -/
def State.cancelCmd (s : State) (c : CmdRef) : State :=
  s.each (s.ctxs.map (·.1)) fun s i =>
    let s := s.each ((s.ctx i).loads.filter (·.cmd = c)) fun s l => s.endLoad i l
    (fun s : State => s.trimReserves i) <| s.onCtx i fun x =>
      { x with
        reqs := x.reqs.filter fun r => r.cmd ≠ some c
        submitted := x.submitted.filter fun k => decide (k.cmd ≠ c) || k.again
        queued := x.queued.filter fun k => decide (k.cmd ≠ c)
        pool := x.pool.map fun p => { p with batch := p.batch.filter fun b => decide (b.cmd ≠ c) } }

/-- The commands that target a context and have not acted. -/
def State.unacted (s : State) (c : Nat) : List CmdRef :=
  s.rings.flatMap fun e => (e.2.cmds.filter fun k => !k.acted && entryTarget k.entry == some c).map fun k => ⟨e.1, k.id⟩

/-- Every command of a context that has not acted completes with a code and has no effect (R489). -/
def State.abortCtx (s : State) (c code : Nat) : State := s.each (s.unacted c) fun s r => (s.cancelCmd r).done r code

/-- A ring becomes DISABLED (R488, R691): what it has not done is withdrawn, what it has not posted is discarded. The
number withdrawn. -/
def State.disableRing (s : State) (ring : Nat) : Nat × State :=
  let gone := (s.ring ring).cmds.filter fun k => !k.acted
  let s := s.each gone fun s k => s.cancelCmd ⟨ring, k.id⟩
  (gone.length, { s with rings := mapSet {} s.rings ring {} })

/-! ### Halls without a context -/

/-- A hall's control processors and sequencers stop (R203). -/
def State.stopHall (s : State) (h : Nat) : State :=
  s.each (hallCores h) fun s n => (s.stopCore n).onCp n fun c => { c with stopped := true, block := .none }

/-- A hall is no longer a context's, with nothing spilled: neither the one that it holds nor the one that it is being given to. Another
context that it is being taken from, or given to, is left alone. -/
def State.vacate (s : State) (h c : Nat) : State :=
  let s := if (s.hall h).holder = some c then s.stopHall h else s
  s.onHall h fun x => { x with holder := x.holder.filter (· ≠ c), incoming := x.incoming.filter (· ≠ c) }

/-- What step 6 takes from a context without a spill: the hall is zeroed at this landing, or at the next (order 2' of Table 13.3). -/
def State.takeHall (s : State) (h c : Nat) : State :=
  let held := (s.hall h).holder == some c
  (s.vacate h c).onHall h fun x => { x with dirty := x.dirty || held }

/-- A context loses every hall that it holds, without a spill, and counts the loss (CTX_PREEMPTS). -/
def State.takeHalls (s : State) (c : Nat) : State :=
  let halls := s.heldBy c
  (s.each halls fun s h => s.takeHall h c).countLoss c halls

/-! ### The end of a context -/

/-- A loss-scale group disabled: EN and what it waits for are cleared (R388). An exchange in progress ends with its round (log
entry 107). -/
def State.lsDisable (s : State) (g : Nat) : State :=
  let s := (s.setFld (Reg.CTX_LS_CTRL g) 31 31 0).setFld (Reg.CTX_LS_STATUS g) 29 29 0
  let x := mapGet {} s.ls g
  { s with ls := mapSet {} s.ls g { x with request := none, msgs := [], stopping := false, gone := x.inStep2 } }

/-- The enabled loss-scale group bound to a context (R379). -/
def State.lsGroupOf (s : State) (c : Nat) : Option Nat :=
  (List.range 16).find? fun g => s.fld (Reg.CTX_LS_CTRL g) 31 31 == 1 && s.fld (Reg.CTX_LS_CTRL g) 27 16 == c

/-- The end of a context's kernel, in progress or to be started again, with a code (R436). -/
def State.endKernel (s : State) (c code r0 r1 : Nat) : State :=
  match (s.ctx c).kernel.or ((s.ctx c).submitted.filter (·.again)) with
  | none => s
  | some k => (s.complete k.cmd code r0 r1).onCtx c fun x =>
    { x with kernel := none, submitted := if x.submitted.any (·.again) then x.queued else x.submitted
             queued := if x.submitted.any (·.again) then none else x.queued }

/-- A context freed (R427): its commands that have not acted are aborted, a started kernel's with them, its ranges and
reservations are freed, its loss-scale group is disabled, and no hall knows it. -/
def State.freeCtx (s : State) (c : Nat) : State :=
  let s := s.abortCtx c Code.CMD_ABORTED
  let s := s.endKernel c Code.CMD_ABORTED 0 0
  let s := match (s.ctx c).pkg with
    | some p => s.done p.cmd (if p.isExport then Code.EXPORT_ABORTED else Code.CMD_ABORTED)
    | none => s
  let s := s.each (s.ctx c).fenceWriting fun s f => s.complete f.1 0 f.2 0
  let s := match (s.ctx c).pool.bind (·.batch) with
    | some b => s.done b.cmd Code.CMD_ABORTED
    | none => s
  let x := s.ctx c
  let s := s.each x.ranges fun s r => s.setPot r.base r.pages 0
  let s := s.each x.reserves fun s r => (s.setPot r.save 1152 0).setPot r.shadow 250 0
  let s := match s.lsGroupOf c with
    | some g => s.lsDisable g
    | none => s
  let s := s.each (s.heldBy c) fun s h => s.takeHall h c
  let s := s.each (List.range 16) fun s h => s.onHall h fun x =>
    { x with
      suspects := x.suspects.filter (· ≠ c), resolved := x.resolved.filter (· ≠ c)
      replay := x.replay.filter (·.ctx ≠ c), history := x.history.filter (·.2 ≠ c) }
  { s with ctxs := mapSet {} s.ctxs c {} }

/-- Rings disabled, in ascending order. -/
def State.disableRings (s : State) (l : List Nat) : State := s.each l fun s r => (s.disableRing r).2

/-- Rings become DISABLED after the completion that a ring holds last has been posted (R490). -/
def State.closeAfter (s : State) (ring : Nat) (l : List Nat) : State :=
  s.onRing ring fun r => match r.held.reverse with
    | h :: rest => { r with held := rest.reverse ++ [{ h with closes := l }] }
    | [] => r

/-- A destroy acts (R427, R489, R490): the context is freed, the command completes, and the rings bound to it become
DISABLED, at once where the completion has been posted or there is none to post. -/
def State.destroyCtx (s : State) (c : Nat) (cmd : Option CmdRef) : State :=
  let s := match cmd with
    | some r => s.acted r
    | none => s
  let s := s.freeCtx c
  let bound := (s.rings.filter fun e => e.2.bound == some c).map (·.1)
  match cmd with
  | none => s.disableRings bound
  | some r =>
    let listed := (s.ring r.ring).cmds.any (·.id == r.id)
    let s := s.done r 0
    if listed ∧ (s.ring r.ring).held ≠ [] then s.closeAfter r.ring bound else s.disableRings bound

/-- A destroy asked for: at once for a context that holds no hall, at step 6 of the next landing otherwise (R427). -/
def State.askDestroy (s : State) (c : Nat) (cmd : Option CmdRef) : State :=
  if (s.ctx c).state = .free then s
  else if (s.heldBy c).isEmpty ∨ (s.ctx c).state = .suspect then s.destroyCtx c cmd
  else s.onCtx c fun x => { x with reqs := x.reqs ++ [{ cmd := cmd, serial := s.serial, target := 0, kind := .destroy }] }

/-- A context becomes FAULTED (R436, R489, Table 16.4): its kernel ends with `code`, what has not acted completes, and it
loses its halls with nothing spilled. What waited for a suspect completes with CTX_STATE_INVALID (R576). -/
def State.faultCtx (s : State) (c code src evCode : Nat) : State :=
  let was := (s.ctx c).state
  let s := (s.setCtx c .faulted).ctxCode c code
  let s := s.endKernel c code s.fr.frame (65536 * src + evCode)
  let s := s.abortCtx c (if was = .suspect then Code.CTX_STATE_INVALID else Code.CMD_ABORTED)
  let s := s.takeHalls c
  s.onCtx c fun x => { x with fault := none, submitted := none, queued := none, saved := [] }

/-! ### Leaving LOADING (R430, R457) -/

/-- Every model without an ACTIVE version makes its VERIFIED one ACTIVE, slot 0 before slot 1. -/
def Ctx.activate (x : Ctx) : Ctx :=
  (List.range 16).foldl (fun x m =>
    if (x.activeSlot m).isSome then x
    else match [0, 1].find? fun k => (x.ver m k).state == .verified with
      | some k => x.setVer m k { x.ver m k with state := .active }
      | none => x) x

/-- A LOADING context becomes READY once INIT_SHARDS shards have verified. -/
def State.leaveLoading (s : State) (c : Nat) : State :=
  let x := s.ctx c
  if x.state = .loading ∧ x.initShards ≤ x.shardsVerified then (s.setCtx c .ready).onCtx c Ctx.activate else s

end Sys2Proof.Machine
end

