-- ==== Sys2Proof/Machine/Generation.lean ====
section
/-! DEFINITION. KV pools: page sets, sequences, batch descriptors and what they do at landings, and the directory that the
device writes (12). -/
namespace Sys2Proof.Machine

/-! ### The layout of a pool (R402, R403) -/

def Pool.seqtabOff (p : Pool) : Nat := alignUp (64 + 16 * p.rowsMax) 4096
def Pool.nullOff (p : Pool) : Nat := alignUp (p.seqtabOff + 32 * p.seqMax) 4096
def Pool.listOff (p : Pool) : Nat := alignUp (p.nullOff + 4 * p.setsMax) 4096
def Pool.dirPages (p : Pool) : Nat := ceilDiv (p.listOff + 4 * p.setsMax * p.seqMax) 65536
/-- The pages of a pool: its directory and its page sets (R400). -/
def Pool.pages (p : Pool) : Nat := p.dirPages + p.poolSets * p.setPages

/-- Whether the parameters keep R401: their ranges (Table 12.2), and no more pages than a region can give. -/
def Pool.paramsOk (p : Pool) : Bool :=
  1 ≤ p.rowsMax && p.rowsMax ≤ 4096 && 1 ≤ p.seqMax && p.seqMax ≤ 16384 && 1 ≤ p.setPages && p.setPages ≤ 64
    && [16, 32, 64, 128, 256, 512, 1024, 2048, 4096].contains p.blockPos && 2 ≤ p.setsMax && p.setsMax ≤ 4096
    && 1 ≤ p.poolSets && p.poolSets ≤ 1048063 && p.pages ≤ 0xFFE00

def Pool.seq (p : Pool) (slot : Nat) : Sequence := mapGet {} p.seqs slot
def Pool.setSeq (p : Pool) (slot : Nat) (q : Sequence) : Pool := { p with seqs := mapSet {} p.seqs slot q }
/-- The free page sets (R404). -/
def Pool.free (p : Pool) : Nat := p.poolSets - p.used.length

/-- The pool of a context changed by `f`. -/
def State.onPool (s : State) (c : Nat) (f : Pool → Pool) : State := s.onCtx c fun x => { x with pool := x.pool.map f }

/-! ### The directory (R402, R404, R406, Tables 12.6 and 12.7) -/

/-- The null index (R289). -/
def nullIndex : Nat := 0x80000000

def SeqState.code : SeqState → Nat
  | .retired => 0 | .active => 1 | .stalled => 2 | .deferred => 3

/-- An entry of the sequence table (Table 12.7). -/
def Sequence.bytes (q : Sequence) : List Byte :=
  leBytes 1 q.state.code ++ leBytes 1 (q.ver + 2 * b2n q.reserve.isSome + 4 * b2n q.isNew) ++ leBytes 2 q.code
    ++ leBytes 4 q.pos ++ leBytes 4 q.sets.length ++ leBytes 4 q.serial ++ leBytes 8 q.tag.toNat ++ leBytes 8 q.frame

/-- The set list of a sequence (R406). -/
def Sequence.setList (q : Sequence) (n : Nat) : List Byte :=
  let l := q.sets ++ q.reserve.toList
  (List.range n).flatMap fun i => leBytes 4 (l.getD i nullIndex)

/-- The sequence table, the set lists and the null list written (R402, R418). -/
def State.writeSeqTable (s : State) (c : Nat) : State :=
  match (s.ctx c).pool with
  | none => s
  | some p =>
    let at_ := 65536 * p.base
    let slots := List.range p.seqMax
    let s := s.storeHbm (at_ + p.seqtabOff) (slots.flatMap fun q => (p.seq q).bytes)
    let s := s.storeHbm (at_ + p.nullOff) (List.replicate p.setsMax (leBytes 4 nullIndex)).flatten
    s.storeHbm (at_ + p.listOff) (slots.flatMap fun q => (p.seq q).setList p.setsMax)

/-- The flags of a row, but for SKIPPED: the version slot of its sequence's pin, NEW and MIGRATED (Table 12.6, R460). -/
def Sequence.rowFlags (q : Sequence) : Nat := 2 * q.ver + 4 * b2n q.isNew + 8 * b2n q.migrated

/-- A row of the row table (Table 12.6, R421). A row whose sequence has no pin shows VER 0 with its other flags. -/
def Pool.rowBytes (p : Pool) (slot : Nat) : List Byte :=
  let q := p.seq slot
  if slot = 0xFFFF ∨ q.state ≠ .active then
    let flags := if slot ≠ 0xFFFF ∧ q.state = .stalled then q.rowFlags else 0
    leBytes 2 slot ++ leBytes 2 (1 + flags) ++ leBytes 4 nullIndex ++ leBytes 4 0 ++ leBytes 4 p.nullOff
  else
    leBytes 2 slot ++ leBytes 2 q.rowFlags ++ leBytes 4 q.pos ++ leBytes 4 q.sets.length
      ++ leBytes 4 (p.listOff + 4 * p.setsMax * slot)

/-- Whether a row is skipped (R421). -/
def Pool.rowSkipped (p : Pool) (slot : Nat) : Bool := slot == 0xFFFF || (p.seq slot).state != .active

/-- The row table of the coming frame written (R418, Table 12.6). -/
def State.writeRowTable (s : State) (c : Nat) : State :=
  match (s.ctx c).pool with
  | none => s
  | some p =>
    let rows := p.rows.map fun r => (r, p.rowSkipped r)
    let skipped := (rows.filter (·.2)).length
    let frame := s.fr.frame + 1
    let bytes := leBytes 8 (frame % 2 ^ 48) ++ leBytes 2 rows.length ++ leBytes 2 (rows.length - skipped)
      ++ List.replicate 52 0 ++ p.rows.flatMap p.rowBytes
    (s.storeHbm (65536 * p.base) bytes).onPool c fun p =>
      { p with rowFrame := frame, tableRows := rows, skips := min (p.skips + skipped) 0xFFFFFFFF }

/-! ### Page sets and pins (R407, R459) -/

/-- The pin count of a version moved by one. -/
def State.pin (s : State) (c model slot : Nat) (up : Bool) : State :=
  if 16 ≤ model then s
  else s.onVer c model slot fun v => { v with pins := if up then v.pins + 1 else v.pins - 1 }

/-- The model that a context's sequences pin: the lowest handle with an ACTIVE version, 16 for none. -/
def Ctx.pinModel (x : Ctx) : Nat := ((List.range 16).find? fun m => (x.activeSlot m).isSome).getD 16

/-- A free page set of a pool; which one is open. -/
def State.takeSet (s : State) (c : Nat) : Option Nat × State :=
  match (s.ctx c).pool with
  | none => (none, s)
  | some p =>
    if p.free = 0 then (none, s)
    else
      let cand := s.freeValue.toNat % p.poolSets
      let k := if p.used.contains cand then
          ((List.range (p.used.length + 1)).find? fun i => !p.used.contains i).getD 0 else cand
      (some k, s.drawn.onPool c fun p => { p with used := k :: p.used })

/-- `n` free page sets. -/
def State.takeSets (s : State) (c : Nat) : Nat → List Nat × State
  | 0 => ([], s)
  | n + 1 => match s.takeSet c with
    | (some k, s) => let (l, s) := s.takeSets c n; (k :: l, s)
    | (none, s) => ([], s)

/-- A code of Table 12.9 recorded for a context (Table 13.13). -/
def State.noteCtx (s : State) (c code : Nat) : State := if code = 0 then s else s.ctxCode c code

/-- A code recorded for a sequence, and for its context (Tables 12.11 and 13.13). -/
def State.seqNote (s : State) (c slot code : Nat) : State :=
  (s.onPool c fun p =>
    let q := p.seq slot
    { p.setSeq slot { q with code := code, frame := s.fr.frame } with
      lastCode := if code = 0 then p.lastCode else code }).noteCtx c code

/-- A sequence changed, with its state, code and frame. -/
def State.seqSet (s : State) (c slot : Nat) (f : Sequence → Sequence) (code : Nat) : State :=
  (s.onPool c fun p => p.setSeq slot (f (p.seq slot))).seqNote c slot code

/-! ### Steps 4 and 5 (R414 to R416) -/

/-- One departure (R414). -/
def State.depart (s : State) (c slot : Nat) : State :=
  match (s.ctx c).pool with
  | none => s
  | some p =>
    let q := p.seq slot
    match q.state with
    | .retired => s.seqNote c slot Code.SEQ_NOT_LIVE
    | .deferred => s.seqSet c slot (fun q => { q with state := .retired, sets := [], reserve := none }) 0
    | _ =>
      let gone := q.sets ++ q.reserve.toList
      let s := s.pin c q.model q.ver false
      let s := s.onPool c fun p =>
        { p with used := p.used.filter fun k => !gone.contains k, departsCount := min (p.departsCount + 1) 0xFFFFFFFF }
      s.seqSet c slot (fun q => 
        { q with state := .retired, sets := [], reserve := none, isNew := false, migrated := false, ver := 0, model := 0 }) 0

/-- One migration (R416). -/
def State.migrate (s : State) (c slot : Nat) : State :=
  let x := s.ctx c
  match x.pool with
  | none => s
  | some p =>
    let q := p.seq slot
    if q.state = .active ∨ q.state = .stalled then
      match x.activeSlot q.model with
      | none => s
      | some k =>
        let s := (s.pin c q.model q.ver false).pin c q.model k true
        s.onPool c fun p => p.setSeq slot { q with ver := k, migrated := true, frame := s.fr.frame, code := 0 }
    else s

/-! ### Step 7 (R417, R418) -/

/-- Stage 1: the rows of the frame just ended advance, each sequence once (R398, R418). -/
def Pool.advance (p : Pool) (frame : Nat) : Pool :=
  if p.rowFrame ≠ frame then p
  else
    let slots := (p.tableRows.filter fun r => !r.2).map (·.1)
    slots.eraseDups.foldl (fun p slot =>
      let q := p.seq slot
      if q.state ≠ .active then p
      else
        let pos := q.pos + 1
        let cross := pos % p.blockPos = 0
        p.setSeq slot
          { q with
            pos := pos, isNew := false, migrated := false, frame := frame, code := 0
            sets := if cross then q.sets ++ q.reserve.toList else q.sets
            reserve := if cross then none else q.reserve }) p

/-- An element put into its place by a key. -/
def insertKey (x : Nat × Nat) : List (Nat × Nat) → List (Nat × Nat)
  | [] => [x]
  | y :: l => if x.1 < y.1 then x :: y :: l else y :: insertKey x l

/-- Slots in ascending order of a key. -/
def byKey (l : List (Nat × Nat)) : List Nat := (l.foldl (fun acc x => insertKey x acc) []).map (·.2)

/-- A sequence that could not refill its reserve (R408, R418). -/
def State.stall (s : State) (c slot code : Nat) : State :=
  (s.onPool c fun p => { p with stalls := min (p.stalls + 1) 0xFFFFFFFF }).seqSet c slot
    (fun q => { q with state := .stalled }) code

/-- Stage 2: reserves refilled in ascending order of serial (R408, R418). -/
def State.refill (s : State) (c : Nat) : State :=
  match (s.ctx c).pool with
  | none => s
  | some p =>
    let need := p.seqs.filter fun e => e.2.state == .stalled || (e.2.state == .active && e.2.reserve.isNone)
    s.each (byKey (need.map fun e => (e.2.serial, e.1))) fun s slot =>
      if p.setsMax < (p.seq slot).sets.length + 1 then s.stall c slot Code.SEQ_LIMIT
      else match s.takeSet c with
        | (some k, s) => s.seqSet c slot (fun q => { q with state := .active, reserve := some k }) 0
        | (none, s) => s.stall c slot Code.SEQ_STALLED

/-- A join tried on its slot, whose sequence holds its position, tag and serial: the sets it needs, or DEFERRED. Whether it
was deferred (R418). -/
def State.tryJoin (s : State) (c slot : Nat) (blocked : Bool) : Bool × State :=
  match (s.ctx c).pool with
  | none => (false, s)
  | some p =>
    let need := ceilDiv ((p.seq slot).pos + 1) p.blockPos + 1
    if blocked ∨ p.free < need then (true, s.seqSet c slot (fun q => { q with state := .deferred }) Code.ADMIT_DEFERRED)
    else
      let got := s.takeSets c need
      let m := (got.2.ctx c).pinModel
      let k := ((got.2.ctx c).activeSlot m).getD 0
      (false, (got.2.pin c m k true).seqSet c slot (fun q =>
        { q with
          state := .active, sets := got.1.dropLast, reserve := got.1.getLast?, isNew := true, migrated := false
          model := m, ver := k }) 0)

/-- An admission in progress: the state, whether a deferred join holds up those behind it, whether any join was deferred, and
whether one of the descriptor was. -/
structure Admission where
  s : State
  blocked : Bool
  anyDef : Bool := false
  own : Bool := false

/-- A join tried. -/
def Admission.join (a : Admission) (c slot : Nat) (hold mine : Bool) : Admission :=
  let d := a.s.tryJoin c slot a.blocked
  { s := d.2, blocked := a.blocked || (d.1 && hold), anyDef := a.anyDef || d.1, own := a.own || (d.1 && mine) }

/-- A DEFERRED sequence, or a join of the descriptor, whose slot must not be in use. -/
def Admission.next (a : Admission) (c : Nat) (hold : Bool) (t : Nat × Option Join) : Admission :=
  match t.2, (a.s.ctx c).pool with
  | some j, some p =>
    if (p.seq j.slot).state ≠ .retired then { a with s := a.s.seqNote c j.slot Code.SEQ_BUSY }
    else
      ({ a with s := a.s.onPool c fun p =>
          { p.setSeq j.slot { pos := j.initPos, tag := j.tag, serial := p.nextSerial } with nextSerial := p.nextSerial + 1 } }
        : Admission).join c t.1 hold true
  | o, _ => a.join c t.1 hold o.isSome

/-- Stage 3: the DEFERRED joins in ascending order of serial, then a descriptor's joins. Every join of a context that is
PREEMPTED or DETACHED is deferred (Tables 12.8 and 13.10). Whether a join of the descriptor was deferred (R413, R418). -/
def State.takeJoins (s : State) (c : Nat) (b : Option Batch) : Bool × State :=
  match (s.ctx c).pool with
  | none => (false, s)
  | some p =>
    let old := byKey ((p.seqs.filter fun e => e.2.state == .deferred).map fun e => (e.2.serial, e.1))
    let hold := b.any (·.holdOrder)
    let tries : List (Nat × Option Join) :=
      old.map (fun q => (q, none)) ++ ((b.map (·.joins)).getD []).map fun j => (j.slot, some j)
    let blocked : Bool := (s.ctx c).state == .preempted || (s.ctx c).state == .detached
    let a := tries.foldl (fun (a : Admission) t => a.next c hold t) { s := s, blocked := blocked }
    (a.own, if a.anyDef then a.s.onPool c fun p => { p with defers := min (p.defers + 1) 0xFFFFFFFF } else a.s)

/-- Step 7 of a context (R418): advance unless `still`, refill, admission, the row table if it holds halls in the next
frame, the sequence table; then the completion of the descriptor that acted (R413). -/
def State.step7 (s : State) (c : Nat) (still next : Bool) : State :=
  match (s.ctx c).pool with
  | none => s
  | some p =>
    let b := p.batch.filter (·.acting)
    let s := if still then s else s.onPool c fun p => p.advance ((s.ctx c).step7At)
    let s := s.refill c
    let admitted := s.takeJoins c b
    let s := admitted.2
    let s := match b with
      | some d => if d.keepRows then s else s.onPool c fun p => { p with rows := d.rows }
      | none => s
    let s := if next then s.writeRowTable c else s
    let s := s.writeSeqTable c
    let s := s.onPool c fun p => { p with freeShown := p.free }
    match b with
    | some d =>
      (s.onPool c fun p => { p with batch := none }).complete d.cmd (if admitted.1 then Code.ADMIT_DEFERRED else 0) s.fr.frame 0
    | none => s

/-! ### Batch descriptors (R409 to R412) -/

/-- The 2-byte numbers of a list at an offset of a descriptor. -/
def halves (bs : List Byte) (o n : Nat) : List Nat := (List.range n).map fun i => leField bs (o + 2 * i) 2

/-- The counts of a descriptor header: rows, departures, joins, migrations (Table 12.4). -/
def batchCounts (bs : List Byte) : Nat × Nat × Nat × Nat := (leField bs 10 2, leField bs 12 2, leField bs 14 2, leField bs 16 2)

/-- The offsets of the four lists after the header, each padded to a multiple of 8 (R409), and the end. -/
def batchOffsets (bs : List Byte) : Nat × Nat × Nat × Nat × Nat :=
  let (r, d, j, m) := batchCounts bs
  let o1 := 32
  let o2 := o1 + alignUp (2 * r) 8
  let o3 := o2 + alignUp (2 * d) 8
  let o4 := o3 + alignUp (2 * m) 8
  (o1, o2, o3, o4, o4 + 16 * j)

/-- Whether a list names no slot twice; 0xFFFF is no slot. -/
def slotsDistinct (l : List Nat) : Bool :=
  let l := l.filter (· ≠ 0xFFFF)
  l.eraseDups.length == l.length

/-- Whether a descriptor keeps R410 against a pool. -/
def batchOk (p : Pool) (bs : List Byte) : Bool :=
  let (r, d, j, m) := batchCounts bs
  let (o1, o2, o3, o4, fin) := batchOffsets bs
  let rows := halves bs o1 r
  let deps := halves bs o2 d
  let migs := halves bs o3 m
  let joins := (List.range j).map fun i => o4 + 16 * i
  let slots := joins.map fun o => leField bs o 2
  let zero (lo hi : Nat) : Bool := (List.range (hi - lo)).all fun i => bs.getD (lo + i) 0 == 0
  fin ≤ bs.length && r ≤ p.rowsMax && d ≤ 1024 && j ≤ 256 && m ≤ 1024
    && (!bit (leField bs 0 8) 62 || r == 0) && bits (leField bs 0 8) 61 48 == 0 && bits (leField bs 8 2) 15 12 == 0
    && zero 18 32 && zero (o1 + 2 * r) o2 && zero (o2 + 2 * d) o3 && zero (o3 + 2 * m) o4
    && joins.all (fun o => zero (o + 2) (o + 4) && leField bs (o + 4) 4 < (p.setsMax - 1) * p.blockPos)
    && (rows ++ deps ++ migs ++ slots).all (fun q => q == 0xFFFF || q < p.seqMax)
    && slotsDistinct deps && slotsDistinct migs && slotsDistinct slots

/-- The record of an accepted descriptor. -/
def batchOf (c : CmdRef) (serial : Nat) (bs : List Byte) : Batch :=
  let (r, d, j, m) := batchCounts bs
  let (o1, o2, o3, o4, _) := batchOffsets bs
  let real (l : List Nat) : List Nat := l.filter (· ≠ 0xFFFF)
  { cmd := c, serial := serial, target := bits (leField bs 0 8) 47 0
    holdOrder := bit (leField bs 0 8) 63, keepRows := bit (leField bs 0 8) 62
    rows := halves bs o1 r, departs := real (halves bs o2 d), migrates := real (halves bs o3 m)
    joins := ((List.range j).map fun i =>
      { slot := leField bs (o4 + 16 * i) 2, initPos := leField bs (o4 + 16 * i + 4) 4
        tag := BitVec.ofNat 64 (leField bs (o4 + 16 * i + 8) 8) : Join }).filter (·.slot ≠ 0xFFFF) }

/-- A refused descriptor, with its code shown for a context that has a pool (Table 12.11). -/
def State.batchRefuse (s : State) (c : CmdRef) (ctx code : Nat) : State :=
  ((s.onPool ctx fun p => { p with lastCode := code }).noteCtx ctx code).done c code

/-- The states in which a context takes commands that give it work or memory; the terminal ones refuse them (R426). -/
def CtxState.takesWork : CtxState → Bool
  | .free | .faulted | .detached => false
  | _ => true

/-- `BATCH`: a batch descriptor, read from host memory as `desc` answers or from device memory, is checked and waits for
its landing (R409 to R412). -/
def execBatch (ring : RingId) (seq : W32) (desc : HostRead) (s : State) : Host.Outcome State Fault Refusal :=
  .next (s.withCmd ring.toNat seq.toNat 0x21 fun c k s =>
    let x := s.ctx k.ctx
    if ¬ x.state.takesWork then s.done c Code.CTX_STATE_INVALID
    else
      let take (s : State) (bs : List Byte) : State :=
        match x.pool with
        | none => s.done c Code.BATCH_INVALID
        | some p =>
          if bits (leField bs 8 2) 11 0 ≠ k.ctx then
            (if (s.ctx (bits (leField bs 8 2) 11 0)).pool.isNone then s.done c Code.BATCH_INVALID else s.done c Code.CMD_CONTEXT)
          else if ¬ batchOk p bs then s.batchRefuse c k.ctx Code.BATCH_INVALID
          else if p.batch.isSome then s.batchRefuse c k.ctx Code.BATCH_PENDING
          else s.onPool k.ctx fun p => { p with batch := some (batchOf c k.serial bs) }
      if bit (k.at_ 24 1) 0 then
        let a := k.at_ 16 8
        let fn := s.ringFn ring.toNat
        match s.hostCheck fn a 32 false with
        | (some code, s) => s.done c code
        | (none, s) =>
          let (_, _, _, _, fin) := batchOffsets (s.bytesAt a 32)
          match s.hostCheck fn a fin false with
          | (some code, s) => s.done c code
          | (none, s) => take s (s.bytesAt a fin)
      else match desc with
        | .failed => s.hostFail c
        | .data bs => take s bs)

end Sys2Proof.Machine
end

