-- ==== Sys2Proof/Machine/Ring.lean ====
section
/-! DEFINITION. Rings, doorbells, command acceptance, the commands about rings and functions, mailboxes, BAR4, MSI-X, and
what resets the host interface (14). -/
namespace Sys2Proof.Machine

/-! ### Doorbells (R479, R480) -/

/-- The ring of a doorbell page or a mailbox of a function (R476, R505). -/
def State.pageRing (s : State) (fn page : Nat) : Option Nat :=
  if fn = 0 then (if s.ringFn page = 0 ∧ page < 65536 then some page else none)
  else match s.vf fn with
    | some v => if s.pcie.vfEnable ∧ page < v.rings then some (v.firstRing + page) else none
    | none => none

/-- A discarded doorbell is counted (R480). -/
def State.dbDrop (s : State) (fn : Nat) : State := s.count (hst fn 0x38) 1

/-- `SQ_TAIL`: a doorbell names the slot after the last entry written (R479, R480). -/
def execSqTail (fn : Fn) (page : W16) (v : W32) (s : State) : Host.Outcome State Fault Refusal :=
  .next <|
    match s.pageRing fn.toNat page.toNat with
    | none => s.dbDrop fn.toNat
    | some ring =>
      let r := s.ring ring
      if r.state ≠ .enabled then s.dbDrop fn.toNat
      else if r.sqSize ≤ v.toNat then s.ringError ring Code.RING_DOORBELL
      else s.onRing ring fun r => { r with sqTail := v.toNat }

/-- `CQ_HEAD`: a doorbell releases the records before the one it names, and held completions are posted (R479, R480,
R497). -/
def execCqHead (fn : Fn) (page : W16) (v : W32) (s : State) : Host.Outcome State Fault Refusal :=
  .next <|
    match s.pageRing fn.toNat page.toNat with
    | none => s.dbDrop fn.toNat
    | some ring =>
      let r := s.ring ring
      if r.state = .disabled then s.dbDrop fn.toNat
      else if r.cqSize ≤ v.toNat then
        (if r.state = .error then s.dbDrop fn.toNat else s.ringError ring Code.RING_DOORBELL)
      else
        let adv := (v.toNat + r.cqSize - r.released % r.cqSize) % r.cqSize
        let t := (s.onRing ring fun r => { r with released := min r.posted (r.released + adv) }).flushHeld ring
        t.disableRings ((r.held.take (r.held.length - (t.ring ring).held.length)).flatMap (·.closes))

/-! ### Fetch and acceptance (R481, R482, R486) -/

/-- The bits of an entry that its opcode names (Tables 14.3 and 14.4); every other bit must be 0. -/
def entryMask (op : Nat) : Nat :=
  let by_ (o n : Nat) : Nat := (2 ^ (8 * n) - 1) * 2 ^ (8 * o)
  let bt (o m : Nat) : Nat := m * 2 ^ (8 * o)
  let frame (o : Nat) : Nat := (2 ^ 48 - 1) * 2 ^ (8 * o)
  let common := by_ 0 1 + bt 1 7 + 0xFFF * 2 ^ 16 + by_ 8 8
  let move := bt 16 1 + by_ 18 2 + by_ 24 8 + by_ 32 8 + frame 40
  common + match op with
    | 0x02 => by_ 16 2 + by_ 18 2 + by_ 20 2 + bt 22 1 + by_ 24 16
    | 0x03 => by_ 16 2
    | 0x04 => by_ 16 1 + by_ 18 6 + by_ 24 8 + by_ 32 2
    | 0x05 => by_ 16 16
    | 0x10 => bt 16 0x87 + bt 17 1 + by_ 18 8 + by_ 28 24
    | 0x12 => by_ 16 5 + bt 21 3
    | 0x13 => by_ 16 8
    | 0x14 => by_ 16 2 + frame 24
    | 0x15 => by_ 16 32
    | 0x16 => move
    | 0x17 => move
    | 0x18 => bt 16 1 + by_ 24 24
    | 0x20 => by_ 16 16 + frame 32
    | 0x21 => by_ 16 8 + bt 24 1
    | 0x22 => by_ 16 2 + frame 24
    | 0x30 => by_ 16 2 + bt 18 7 + by_ 20 2 + by_ 24 32
    | 0x31 => bt 18 4 + by_ 20 2 + by_ 24 24
    | 0x32 => by_ 16 1 + frame 24
    | 0x33 => by_ 16 2
    | 0x34 => by_ 16 2
    | _ => 0

/-- Whether the operands of an entry lie in the ranges of Table 14.4 and of the rules that name no other code. -/
def State.operandsOk (s : State) (ring : Nat) (e : BitVec 512) : Bool :=
  let f := entryAt e
  match f 0 1 with
  | 0x02 => f 18 2 < (if s.ringFn ring = 0 then 2048 else 128) && f 24 8 % 4096 == 0 && f 32 8 % 4096 == 0
  | 0x04 => 1 ≤ f 16 1 && f 16 1 ≤ 16 && 1 ≤ f 20 2 && f 20 2 ≤ 4096 && f 18 2 + f 20 2 ≤ 65536
  | 0x10 => f 24 2 ≤ 1024
  | 0x12 => f 16 4 ≠ 0 && (f 20 1 ≤ 15 || f 20 1 == 0xFF)
  | 0x30 => f 16 1 ≤ 15 && f 17 1 ≤ 1
  | 0x32 => f 16 1 ≤ 15
  | 0x33 => f 16 1 ≤ 15 && f 17 1 ≤ 1
  | 0x34 => f 16 1 ≤ 15 && f 17 1 ≤ 1
  | _ => true

/-- Whether the ring kind of a command allows the ring; the context of a bound ring is checked apart (Table 14.4). -/
def State.ringKindOk (s : State) (ring : Nat) (k : RingKind) : Bool :=
  match k with
  | .any => true
  | .admin => s.isAdmin ring
  | .pf => ring == 0
  | .bound => (s.ring ring).bound.isSome || s.isAdmin ring

/-- The features that an entry needs (Table 14.2). -/
def needsFeatures (e : BitVec 512) : List Nat :=
  let f := entryAt e
  let op := f 0 1
  (if bit (f 1 1) 0 then [featMailbox] else [])
  ++ (match op with
    | 0x04 => [featSriov]
    | 0x05 => [featEvict]
    | 0x10 => (if bit (f 16 1) 7 then [featKeep] else []) ++ (if bit (f 17 1) 0 then [featGen] else [])
    | 0x15 => [featMove]
    | 0x16 => featMove :: (if bit (f 16 1) 0 then [featGarrid] else [])
    | 0x17 => featExport :: (if bit (f 16 1) 0 then [featGarrid] else [])
    | 0x21 => [featGen]
    | 0x30 => if bit (f 18 1) 2 then [featGarrid] else []
    | 0x31 => if bit (f 18 1) 2 then [featGarrid] else []
    | _ => [])

/-- The general checks of R486, R426 and R475 on an entry, in that order. -/
def State.entryCheck (s : State) (ring : Nat) (e : BitVec 512) : Option Nat :=
  let ctx := bits (entryAt e 2 2) 11 0
  let bound := (s.ring ring).bound
  match opKind (entryAt e 0 1) with
  | none => some Code.CMD_OPCODE
  | some kind =>
    if (e.toNat &&& entryMask (entryAt e 0 1)) ≠ e.toNat ∨ ¬ s.operandsOk ring e then some Code.CMD_ENCODING
    else if ¬ s.ringKindOk ring kind then some Code.CMD_PRIVILEGE
    else if bound.isSome ∧ bound ≠ some ctx then some Code.CMD_CONTEXT
    else
      let target := entryTarget e
      let live := target.elim true fun c => decide ((s.ctx c).state ≠ .free)
      if target.isSome ∧ live ∧ (s.ctx ctx).fn ≠ s.ringFn ring then some Code.CMD_CONTEXT
      else if ¬ live then some Code.CTX_STATE_INVALID
      else if (needsFeatures e).any fun b => !s.feature b then some Code.FEATURE_NOT_ACCEPTED
      else none

/-- The number that little-endian bytes of an entry spell, as its 512 bits. -/
def entryOf (bs : List Byte) : BitVec 512 := BitVec.ofNat 512 (leNat bs)

/-- `COMMAND_FETCH`: the next entry of a ring arrives, or its read fails. It takes the next SEQ and is checked; a refused
one is completed at once, the others count as accepted unless they wait for an ORDER command (R481, R484 to R486). A failure on a ring
that has nothing to fetch and has posted a record is that of a write to its CQ (R485; log entry 75). -/
def execCommandFetch (ring : RingId) (r : HostRead) (s : State) : Host.Outcome State Fault Refusal :=
  let n := ring.toNat
  let q := s.ring n
  .next <|
    if q.state ≠ .enabled ∨ ¬ s.pcie.linkUp ∨ (q.fetched = q.sqTail ∧ (r ≠ .failed ∨ q.posted = 0)) then s
    else match r with
      | .failed => (s.raise { src := 0x40, code := Code.HOST_DMA }).ringError n Code.HOST_DMA
      | .data bs =>
        if bs.length ≠ 64 then s
        else
          let e := entryOf bs
          let id := s.serial
          let s := { s with serial := s.serial + 1 }
          let k : Cmd := { seq := q.seqNext, id := id, entry := e }
          let s := s.onRing n fun q =>
            { q with fetched := (q.fetched + 1) % q.sqSize, seqNext := (q.seqNext + 1) % 2 ^ 32, cmds := q.cmds ++ [k] }
          match s.entryCheck n e with
          | some code => (s.mboxNames n k).done ⟨n, id⟩ code
          | none =>
            if q.cmds.any (fun x => x.order && !x.started) ∨ k.order then s
            else s.accept n k

/-- `NOP`: completes when accepted. -/
def execNop (ring : RingId) (seq : W32) (s : State) : Host.Outcome State Fault Refusal :=
  .next (s.withCmd ring.toNat seq.toNat 0x01 fun c _ s => s.done c 0)

/-! ### Commands about rings and functions (R477, R478, R487, R488, R504) -/

/-- `CREATE_RING`: a ring of the function is created and ENABLED, bound or unbound (R477 to R479). -/
def execCreateRing (ring : RingId) (seq : W32) (s : State) : Host.Outcome State Fault Refusal :=
  .next (s.withCmd ring.toNat seq.toNat 0x02 fun c k s =>
    let fn := s.ringFn ring.toNat
    let n := k.at_ 16 2
    let bound := bit (k.at_ 22 1) 0
    let live := (s.rings.filter fun e => e.2.state ≠ .disabled ∧ e.2.bound = some k.ctx).length
    if s.ringFn n ≠ fn then s.done c Code.RING_LIMIT
    else if s.isAdmin n ∨ (s.ring n).state ≠ .disabled ∨ k.at_ 20 1 < 4 ∨ 16 < k.at_ 20 1 ∨ k.at_ 21 1 < 4 ∨ 16 < k.at_ 21 1 then
      s.done c Code.RING_STATE
    else if bound ∧ (s.ctx k.ctx).state = .free then s.done c Code.CTX_STATE_INVALID
    else if bound ∧ 255 ≤ live then s.done c Code.RING_LIMIT
    else
      let r : Ring :=
        { state := .enabled, bound := if bound then some k.ctx else none, sq := k.at_ 24 8, cq := k.at_ 32 8
          sqLog2 := k.at_ 20 1, cqLog2 := k.at_ 21 1, vector := k.at_ 18 2 }
      (s.onRing n fun _ => r).done c 0)

/-- `DELETE_RING`: a ring stops, what it has not done is withdrawn, and it becomes DISABLED (R488). -/
def execDeleteRing (ring : RingId) (seq : W32) (s : State) : Host.Outcome State Fault Refusal :=
  .next (s.withCmd ring.toNat seq.toNat 0x03 fun c k s =>
    let n := k.at_ 16 2
    if s.ringFn n ≠ s.ringFn ring.toNat then s.done c Code.RING_LIMIT
    else if s.isAdmin n ∨ (s.ring n).state = .disabled then s.done c Code.RING_STATE
    else
      let (gone, s) := s.disableRing n
      s.complete c 0 gone 0)

/-- `VF_CONFIG`: names a virtual function's rings, halls, BAR4 base and context limit, or is refused (R504). -/
def execVfConfig (ring : RingId) (seq : W32) (s : State) : Host.Outcome State Fault Refusal :=
  .next (s.withCmd ring.toNat seq.toNat 0x04 fun c k s =>
    let vf := k.at_ 16 1
    let v : VfConfig :=
      { firstRing := k.at_ 18 2, rings := k.at_ 20 2, hallMask := k.at_ 22 2, bar4 := k.at_ 24 8, maxContexts := k.at_ 32 2 }
    let inRange (r : Nat) : Bool := v.firstRing ≤ r && r < v.firstRing + v.rings
    let meets (w : VfConfig) : Bool := v.firstRing < w.firstRing + w.rings && w.firstRing < v.firstRing + v.rings
    let pfRing := s.rings.any fun e => inRange e.1 && e.2.state != .disabled && s.ringFn e.1 == 0
    let other := s.pcie.vfs.any fun e => e.1 != vf && e.2.any meets
    if inRange 0 ∨ pfRing ∨ other ∨ v.bar4 % 2 ^ 34 ≠ 0 ∨ s.ctxsOf vf ≠ [] then s.done c Code.VF_CONFIG_INVALID
    else
      ({ s with pcie := { s.pcie with vfs := mapSet none s.pcie.vfs vf (some v) } } : State).done c 0)

/-- `EVICT_AREA`: registers the host eviction area (R447). -/
def execEvictArea (ring : RingId) (seq : W32) (s : State) : Host.Outcome State Fault Refusal :=
  .next (s.withCmd ring.toNat seq.toNat 0x05 fun c k s =>
    ({ s with pcie := { s.pcie with evictArea := some (k.at_ 16 8, k.at_ 24 8) } } : State).done c 0)

/-- `COPY`: moves data between host memory and device memory, checked as a BAR4 access (R492). `host` answers the read
of host memory, or says whether its write failed. -/
def execCopy (ring : RingId) (seq : W32) (host : HostRead) (s : State) : Host.Outcome State Fault Refusal :=
  let n := ring.toNat
  .next <|
    match (s.ring n).cmds.find? (·.seq == seq.toNat), host with
    | some k, .data bs => if bit (k.at_ 16 1) 0 ∧ bs.length ≠ k.at_ 40 8 then s else run n host
    | _, _ => run n host
where
  /-- The copy itself. -/
  run (n : Nat) (host : HostRead) : State :=
    s.withCmd n seq.toNat 0x18 fun c k s =>
      let toDevice := bit (k.at_ 16 1) 0
      let a := k.at_ 32 8
      let len := k.at_ 40 8
      match s.hostCheck (s.ringFn n) a len toDevice, host with
      | (some code, s), _ => s.done c code
      | (none, s), .failed => s.hostFail c
      | (none, s), .data bs =>
        if toDevice then (s.storeHbm a bs).done c 0
        else (s.emit (.hostWrite (k.at_ 24 8) (s.bytesAt a len))).done c 0

/-! ### Features (R472 to R474) -/

/-- `FEATURE_LOCK`: the write of 1 to LOCK: fixes the accepted vector, or is refused (R473). Ports that wait for the lock train (R524). -/
def execFeatureLock (s : State) : Host.Outcome State Fault Refusal :=
  .next <| s.whenReady <|
    if s.locked then s.featureCode Code.FEATURE_LOCKED
    else if (s.reg Reg.DEV_FEATURE_ACCEPT0) &&& (s.reg Reg.DEV_FEATURE_OFFER0) ≠ s.reg Reg.DEV_FEATURE_ACCEPT0
        ∨ s.reg Reg.DEV_FEATURE_ACCEPT1 ≠ 0 then s.featureCode Code.FEATURE_INVALID
    else (s.setFld Reg.DEV_FEATURE_CTRL 0 0 1).startPorts (List.range 16)

/-! ### Admin rings (R474, R476, R503, R691) -/

/-- Whether a virtual function is usable: it has come into being and VF_CONFIG has named it (R503). -/
def State.fnUsable (s : State) (fn : Nat) : Bool := fn == 0 || (s.pcie.vfEnable && (s.vf fn).isSome)

/-- `ADMIN_RING_ENABLE`: the write of an admin register with EN = 1 while its ring is DISABLED: enables the admin ring of
the function with the sizes and vector written, or is refused (R474, R478, R503). -/
def execAdminRingEnable (fn : Fn) (v : W32) (s : State) : Host.Outcome State Fault Refusal :=
  let f := fn.toNat
  let w := v.toNat
  let (sq, cq, vec) := (bits w 4 0, bits w 12 8, bits w 26 16)
  .next <| s.whenReady <|
    if ¬ s.locked ∨ ¬ s.fnUsable f ∨ sq < 4 ∨ 16 < sq ∨ cq < 4 ∨ 16 < cq ∨ (f ≠ 0 ∧ 128 ≤ vec) then s.hstCode f Code.RING_STATE
    else match s.adminRing f with
      | none => s.hstCode f Code.RING_STATE
      | some n =>
        if (s.ring n).state ≠ .disabled then s.hstCode f Code.RING_STATE
        else
          let s := s.setReg (hst f 0x18) (2 ^ 31 + 2 ^ 16 * vec + 2 ^ 8 * cq + sq)
          s.onRing n fun _ =>
            { state := .enabled, sq := s.reg (hst f 8), cq := s.reg (hst f 0x10), sqLog2 := sq, cqLog2 := cq, vector := vec }

/-- `ADMIN_RING_DISABLE`: the write of an admin register with EN = 0: disables the admin ring from any state, and the other
fields take the values written (R691). -/
def execAdminRingDisable (fn : Fn) (v : W32) (s : State) : Host.Outcome State Fault Refusal :=
  let f := fn.toNat
  let w := v.toNat
  .next <| s.whenReady <|
    let s := s.setReg (hst f 0x18) (2 ^ 16 * bits w 26 16 + 2 ^ 8 * bits w 12 8 + bits w 4 0)
    match s.adminRing f with
    | some n => (s.disableRing n).2
    | none => s

/-- The layout of HST_RING_INFO for a ring (Table 14.11). -/
def Ring.info (r : Ring) : Nat :=
  let st := match r.state with | .disabled => 0 | .enabled => 1 | .error => 2
  2 ^ 62 * st + 2 ^ 61 * b2n r.bound.isSome + 2 ^ 48 * (r.bound.getD 0) + 2 ^ 32 * min r.cmds.length 0xFFFF + r.seqNext

/-- `RING_QUERY`: a write of HST_RING_QUERY names the ring whose state HST_RING_INFO is to show. -/
def execRingQuery (fn : Fn) (ring : RingId) (s : State) : Host.Outcome State Fault Refusal :=
  .next <| s.whenReady
    { s with pcie := { s.pcie with ringQueries := mapSet none s.pcie.ringQueries fn.toNat (some ring.toNat) } }

/-- `RING_INFO_VALID`: 1 µs after the query HST_RING_INFO holds the ring's state; a ring of another function shows 0. -/
def execRingInfoValid (fn : Fn) (s : State) : Host.Outcome State Fault Refusal :=
  let f := fn.toNat
  .next <|
    match mapGet none s.pcie.ringQueries f with
    | none => s
    | some n =>
      let s := { s with pcie := { s.pcie with ringQueries := mapSet none s.pcie.ringQueries f none } }
      s.setReg (hst f 0x30) (if s.ringFn n = f then (s.ring n).info else 0)

/-! ### Resets of the host interface (R506 to R508, R650) -/

/-- Contexts destroyed as R427 gives (R507). -/
def State.destroyAll (s : State) (l : List Nat) : State := s.each l fun s c => s.askDestroy c none

/-- The rings that are listed for a function. -/
def State.ringsOf (s : State) (fn : Nat) : List Nat := (s.rings.map (·.1)).filter fun r => s.ringFn r == fn

/-- VF Enable clears: the rings of every VF are disabled and its contexts destroyed (R506, R507). -/
def State.clearVfs (s : State) : State :=
  let s := s.disableRings ((s.rings.map (·.1)).filter fun r => s.ringFn r != 0)
  let s := s.destroyAll (s.liveCtxs.filter fun c => (s.ctx c).fn != 0)
  { s with pcie := { s.pcie with vfEnable := false } }

/-- A package that a reset of the host interface or a link loss overtakes is not written to the host (R508, R596). -/
def State.dropHostPackages (s : State) : State :=
  s.each (s.ctxs.map (·.1)) fun s c => s.onCtx c fun x => { x with pkg := x.pkg.filter (·.garrid) }

/-- The host-interface state is reset (R506): rings, mailboxes, MSI-X tables, HST registers and VF Enable. -/
def State.hostReset (s : State) : State :=
  let s := s.clearVfs
  let s := (s.disableRings (s.rings.map (·.1))).dropHostPackages
  let s := s.resetRegs 0x200000 0x300000
  let s := s.each ((List.range 16).map (· + 1)) fun s f => s.resetRegs (hst f 0) (hst f 0x100)
  { s with
    mboxes := []
    pcie := { s.pcie with msix := [], pba := [], ringQueries := [] } }

/-- `PF_FLR`: a function-level reset of the PF resets the host interface (R506). -/
def execPfFlr (s : State) : Host.Outcome State Fault Refusal := .next s.hostReset

/-- `PERST_N`: its assertion resets the host interface and nothing else (R506, R650). -/
def execPerstN (s : State) : Host.Outcome State Fault Refusal :=
  .next (({ s with pcie := { s.pcie with perst := true } } : State).hostReset)

/-- `LINK_UP`: the data link layer comes up with a width and a speed (R510). -/
def execLinkUp (width speed : BitVec 4) (s : State) : Host.Outcome State Fault Refusal :=
  .next <|
    if width.toNat ∉ [1, 2, 4, 8] ∨ speed.toNat = 0 ∨ 5 < speed.toNat then s
    else { s with pcie := { s.pcie with linkUp := true, perst := false, width := width.toNat, speed := speed.toNat } }

/-- `LINK_LOSS`: a transition to DL_Down. With a ring ENABLED it is a link loss: the host interface is reset, the loss is
recorded and counted, and it raises HOST_LINK_LOST (R506, R508). -/
def execLinkLoss (s : State) : Host.Outcome State Fault Refusal :=
  .next <|
    if ¬ s.pcie.linkUp then s
    else
      let loss := s.rings.any fun e => e.2.state == .enabled
      let s : State := { s with pcie := { s.pcie with linkUp := false, width := 0, speed := 0 } }
      if loss then
        let s := s.hostReset
        ((s.hstCode 0 Code.LINK_LOST).count Reg.HST_LINK_LOSSES 1).raise { src := 0x3F, code := Code.LINK_LOST }
      else s

/-- `VF_FLR`: a function-level reset of a VF disables its rings and destroys its contexts (R507). -/
def execVfFlr (vf : Fn) (s : State) : Host.Outcome State Fault Refusal :=
  let f := vf.toNat
  .next <|
    if f = 0 ∨ totalVfs < f ∨ ¬ s.pcie.vfEnable then s
    else ((s.disableRings (s.ringsOf f)).setFld (hst f 0x18) 31 31 0).destroyAll (s.ctxsOf f)

/-- `VF_ENABLE_SET`: the virtual functions come into being if SRIOV is accepted (R475, R503). -/
def execVfEnableSet (s : State) : Host.Outcome State Fault Refusal :=
  .next <|
    if s.feature featSriov then { s with pcie := { s.pcie with vfEnable := true } }
    else s.featureCode Code.FEATURE_NOT_ACCEPTED

/-- `VF_ENABLE_CLEAR`: every context of every VF is destroyed (R507). -/
def execVfEnableClear (s : State) : Host.Outcome State Fault Refusal := .next s.clearVfs

/-! ### MSI-X and BAR4 (R470, R471, R501, R502, R317) -/

/-- `MSIX_UNMASK`: a vector is unmasked; a pending message is sent (R502). -/
def execMsixUnmask (fn : Fn) (vector : BitVec 11) (s : State) : Host.Outcome State Fault Refusal :=
  let k := 4096 * fn.toNat + vector.toNat
  .next <|
    if ¬ s.ready ∨ 16 < fn.toNat ∨ (fn ≠ 0 ∧ (128 ≤ vector.toNat ∨ ¬ s.pcie.vfEnable)) then s
    else
      let e := mapGet msixDefault s.pcie.msix k
      let s : State := { s with pcie := { s.pcie with
        msix := mapSet msixDefault s.pcie.msix k (e &&& ~~~(1#128 <<< 96)) } }
      if s.pcie.pba.contains k ∧ s.pcie.linkUp then
        ({ s with pcie := { s.pcie with pba := s.pcie.pba.filter (· ≠ k) } } : State).sendMsix fn.toNat vector.toNat
      else s

/-- `BAR4_RESIZE`: the size of the PF's BAR4 changes; HST_BAR4_BASE becomes the nearest multiple below (R470). -/
def execBar4Resize (log2 : BitVec 6) (s : State) : Host.Outcome State Fault Refusal :=
  let n := log2.toNat
  .next <|
    if n < 30 ∨ 40 < n then s
    else
      ({ s with pcie := { s.pcie with bar4Log2 := n } } : State).setReg Reg.HST_BAR4_BASE
        (s.reg Reg.HST_BAR4_BASE / 2 ^ n * 2 ^ n)

/-- The base and the size of a function's BAR4 window (R470): none before the lock, when only register accesses are taken (R474), nor
for a VF that is not usable. -/
def State.bar4 (s : State) (fn : Nat) : Option (Nat × Nat) :=
  if ¬ s.locked then none
  else if fn = 0 then some (s.reg Reg.HST_BAR4_BASE, 2 ^ s.pcie.bar4Log2)
  else if s.fnUsable fn then (s.vf fn).map fun v => (v.bar4, 2 ^ 34)
  else none

/-- Data that the manual does not give: what a read returns where there is no window. -/
def State.openData (s : State) (n : Nat) : List Byte := (List.range n).map fun i => Config.openByte s.free i

/-- `BAR4_READ`: a host read through BAR4: the data, 0 where it fails a check, which is reported; uncorrectable data
carries the EP bit (R317, R470, Table 9.6). Where there is no window the data is open (log entry 118). -/
def execBar4Read (fn : Fn) (off : W64) (len : BitVec 13) (s : State) : Host.Outcome State Fault Refusal :=
  let f := fn.toNat
  let n := len.toNat
  let o := off.toNat
  .next <|
    match s.bar4 f with
    | none => s.drawn.emit (.bar4Data f o (s.openData n) false)
    | some (base, size) =>
      if size < o + n then s
      else if 2 ^ 40 < base + o + n then s.emit (.bar4Data f o (List.replicate n 0) false)
      else match s.hostCheck f (base + o) n false with
        | (some code, s) =>
          (s.emit (.bar4Data f o (List.replicate n 0) (code = Code.MEM_UE))).raise { src := 0x4B, code := code }
        | (none, s) => s.emit (.bar4Data f o (s.bytesAt (base + o) n) (s.ueAt (base + o) n).isSome)

/-- `BAR4_WRITE`: a posted host write through BAR4, discarded and reported where it fails a check (R317, R470, R471). -/
def execBar4Write (fn : Fn) (off : W64) (data : List Byte) (s : State) : Host.Outcome State Fault Refusal :=
  let f := fn.toNat
  let n := data.length
  let o := off.toNat
  .next <|
    match s.bar4 f with
    | none => s
    | some (base, size) =>
      if size < o + n ∨ 2 ^ 40 < base + o + n then s
      else match s.hostCheck f (base + o) n true with
        | (some code, s) => s.raise { src := 0x4B, code := code }
        | (none, s) => s.storeHbm (base + o) data

end Sys2Proof.Machine
end

