-- ==== Sys2Proof/Machine/Sha.lean ====
section
/-! DEFINITION. SHA-256 and HMAC with it: the digest of shard packages, resident images, context packages, evidence, firmware images
and attestation reports (13, 18). The eight working words are one 256-bit number, the first word highest, as FIPS 180-4 orders them;
the schedule is a window of sixteen words that slides by one word in each step. -/
namespace Sys2Proof.Machine

/-- The big-endian number that bytes spell. -/
def beNat (bs : List Byte) : Nat := leNat bs.reverse

/-- The big-endian bytes of a number. -/
def beBytes (n v : Nat) : List Byte := (leBytes n v).reverse

/-- Eight constants of SHA-256 at a time, the first highest. -/
def shaConst : Nat → BitVec 256
  | 0 => 0x428a2f9871374491b5c0fbcfe9b5dba53956c25b59f111f1923f82a4ab1c5ed5
  | 1 => 0xd807aa9812835b01243185be550c7dc372be5d7480deb1fe9bdc06a7c19bf174
  | 2 => 0xe49b69c1efbe47860fc19dc6240ca1cc2de92c6f4a7484aa5cb0a9dc76f988da
  | 3 => 0x983e5152a831c66db00327c8bf597fc7c6e00bf3d5a7914706ca635114292967
  | 4 => 0x27b70a852e1b21384d2c6dfc53380d13650a7354766a0abb81c2c92e92722c85
  | 5 => 0xa2bfe8a1a81a664bc24b8b70c76c51a3d192e819d6990624f40e3585106aa070
  | 6 => 0x19a4c1161e376c082748774c34b0bcb5391c0cb34ed8aa4a5b9cca4f682e6ff3
  | _ => 0x748f82ee78a5636f84c878148cc7020890befffaa4506cebbef9a3f7c67178f2

/-- Word `i` of eight, the first highest. -/
def octWord (v : BitVec 256) (i : Nat) : W32 := v.extractLsb' (224 - 32 * i) 32

/-- The exclusive or of the rotations of a word by the listed amounts. -/
def spun (x : W32) (l : List Nat) : W32 := l.foldl (fun v n => v ^^^ x.rotateRight n) 0

/-- The window of the schedule one word on. -/
def slide (w : List W32) : List W32 :=
  let early := w.getD 1 0
  let late := w.getD 14 0
  w.drop 1 ++ [w.getD 0 0 + (spun early [7, 18] ^^^ early >>> 3) + w.getD 9 0 + (spun late [17, 19] ^^^ late >>> 10)]

/-- One step on the working words, with the sum of its constant and its schedule word: where `e` has a 1 bit the choice takes that of
`f`, elsewhere that of `g`; the majority takes what two of the three words agree on. -/
def shaStep (v : BitVec 256) (kw : W32) : BitVec 256 :=
  let x := octWord v
  let choice := x 6 ^^^ (x 4 &&& (x 5 ^^^ x 6))
  let majority := x 0 &&& (x 1 ||| x 2) ||| (x 1 &&& x 2)
  let grown := kw + choice + spun (x 4) [6, 11, 25] + x 7
  (grown + majority + spun (x 0) [2, 13, 22]) ++ x 0 ++ x 1 ++ x 2 ++ (x 3 + grown) ++ x 4 ++ x 5 ++ x 6

/-- The `n` steps that remain, from step `t` on. -/
def shaSteps : Nat → Nat → List W32 → BitVec 256 → BitVec 256
  | 0, _, _, v => v
  | n + 1, t, w, v => shaSteps n (t + 1) (slide w) (shaStep v (octWord (shaConst (t / 8)) (t % 8) + w.getD 0 0))

/-- A block of 64 bytes taken into the hash value. -/
def shaAbsorb (h : BitVec 256) (block : List Byte) : BitVec 256 :=
  let w := (List.range 16).map fun i => BitVec.ofNat 32 (beNat ((block.drop (4 * i)).take 4))
  let v := shaSteps 64 0 w h
  (List.range 8).foldl (fun r i => (r <<< 32) ||| (octWord h i + octWord v i).setWidth 256) 0

/-- `n` blocks in order. -/
def shaBlocks : Nat → BitVec 256 → List Byte → BitVec 256
  | 0, h, _ => h
  | n + 1, h, bs => shaBlocks n (shaAbsorb h (bs.take 64)) (bs.drop 64)

/-- The SHA-256 digest of a message, 32 bytes in the order of FIPS 180-4. -/
def sha256 (msg : List Byte) : List Byte :=
  let fill := (119 - msg.length % 64) % 64
  let padded := msg ++ 0x80 :: List.replicate fill 0 ++ beBytes 8 (8 * msg.length)
  beBytes 32 (shaBlocks (padded.length / 64) 0x6a09e667bb67ae853c6ef372a54ff53a510e527f9b05688c1f83d9ab5be0cd19 padded).toNat

/-- Two byte strings combined bit by bit, as long as the shorter one. -/
def xorBytes (a b : List Byte) : List Byte := List.zipWith (· ^^^ ·) a b

/-- HMAC with SHA-256 for a key of at most 64 bytes. -/
def hmac (key msg : List Byte) : List Byte :=
  let k := key ++ List.replicate (64 - key.length) 0
  let pad (b : Byte) : List Byte := xorBytes k (List.replicate 64 b)
  sha256 (pad 0x5C ++ sha256 (pad 0x36 ++ msg))

end Sys2Proof.Machine
end

