-- ==== Sys2Proof/Machine/Models.lean ====
section
/-! DEFINITION. The model cache: shard loads, Brixah packages, versions, switches, discards, restores and re-checks (13 R442 to
R459). -/
namespace Sys2Proof.Machine

/-! ### Brixah packages (Tables 13.4 and 13.5, R449, R450) -/

/-- Whether `n` bytes from `lo` on are 0. -/
def zeroBytes (bs : List Byte) (lo n : Nat) : Bool := (List.range n).all fun i => bs.getD (lo + i) 0 == 0

/-- Whether DIGEST matches (Table 13.4). -/
def brixahDigestOk (bs : List Byte) : Bool :=
  decide ((bs.drop 64).take 32 = sha256 (bs.take 64 ++ bs.drop 96)) && 128 ≤ bs.length

/-- Whether the header keeps Table 13.4 in a package of `n` bytes. -/
def brixahHeaderOk (bs : List Byte) : Bool :=
  let f := leField bs
  f 0 4 == 0x48585242 && f 4 2 == 1 && f 6 2 == 128 && f 20 2 < f 22 2 && 1 ≤ f 22 2 && f 22 2 ≤ 64 && 1 ≤ f 24 2
    && f 24 2 ≤ 4096 && zeroBytes bs 26 6 && f 40 8 % 65536 == 0 && f 32 8 < f 40 8 && f 48 8 == bs.length
    && zeroBytes bs 56 8 && zeroBytes bs 96 32 && 128 + 48 * f 24 2 ≤ bs.length

/-- The header of a Zstandard frame that R449 allows: its length, its window, the content size where it gives one, and whether a
checksum follows the blocks; none for another magic (a skippable frame), a reserved bit, a dictionary or a window above 8 MiB.
The layout is RFC 8878's (PRESUMED, log entry 6). -/
def zstdHeader (p : List Byte) : Option (Nat × Nat × Option Nat × Bool) :=
  let d := leField p 4 1
  let single := bit d 5
  let window := leField p 5 1
  let dictAt := if single then 5 else 6
  let dictBytes := if d % 4 = 3 then 4 else d % 4
  let sizeBytes := if d / 64 = 0 then (if single then 1 else 0) else 2 ^ (d / 64)
  let sizeAt := dictAt + dictBytes
  let size := leField p sizeAt sizeBytes + (if d / 64 = 1 then 256 else 0)
  let win := if single then size else 2 ^ (7 + window / 8) * (8 + window % 8)
  if p.length < sizeAt + sizeBytes ∨ leField p 0 4 ≠ 0xFD2FB528 ∨ bit d 3 ∨ leField p dictAt dictBytes ≠ 0 ∨ 0x800000 < win then none
  else some (sizeAt + sizeBytes, win, if sizeBytes = 0 then none else some size, bit d 2)

/-- The blocks of a frame from offset `o` on: the decompressed bytes after `out`, and the offset behind the last block. -/
def zstdBlocks (p : List Byte) (limit : Nat) : Nat → Nat → List Byte → Option (List Byte × Nat)
  | 0, _, _ => none
  | fuel + 1, o, out =>
    let h := leField p o 3
    let (kind, n) := (h / 2 % 4, h / 8)
    let next := o + 3 + (if kind = 1 then 1 else n)
    let got := match kind with
      | 0 => some ((p.drop (o + 3)).take n)
      | 1 => some (List.replicate n (p.getD (o + 3) 0))
      | 2 => Config.zstdBlock p o
      | _ => none
    if p.length < next ∨ limit < n then none
    else match got with
      | none => none
      | some b => if h % 2 = 1 then some (out ++ b, next) else zstdBlocks p limit fuel next (out ++ b)

/-- The bytes that a payload of exactly one Zstandard frame decompresses to, none where R449 refuses it. A content checksum
is skipped unread. -/
def unzstd (p : List Byte) : Option (List Byte) :=
  match zstdHeader p with
  | none => none
  | some (o, win, size, checksum) =>
    match zstdBlocks p (min win 0x20000) p.length o [] with
    | none => none
    | some (out, e) =>
      if p.length = e + (if checksum then 4 else 0) ∧ (size.all fun n => n == out.length) then some out else none

/-- A section entry (Table 13.5): its fields, with the source bytes after decompression. -/
structure Section where
  src : List Byte
  dst : Nat
  srcFmt : Nat
  dstFmt : Nat
  op : Nat
  rnd : Nat
  rows : Nat
  cols : Nat
deriving DecidableEq, Repr

/-- Section `i` of a package, none where it breaks Table 13.5 or R449. -/
def sectionAt (bs : List Byte) (i : Nat) : Option Section :=
  let o := 128 + 48 * i
  let f (p n : Nat) : Nat := leField bs (o + p) n
  let op := f 26 1
  if (fmtBits (f 24 1)).isNone ∨ (fmtBits (f 25 1)).isNone ∨ 3 < op % 128 ∨ ¬ zeroBytes bs (o + 28) 4
      ∨ ¬ zeroBytes bs (o + 40) 8 ∨ bs.length < f 0 8 + f 8 8 then none
  else
    let converts := op % 2 = 1
    if (if converts then ¬ rndLegal (f 24 1) (f 25 1) (f 27 1) ∨ ¬ (pathOk (f 24 1) (f 25 1) (f 25 1)) else f 27 1 ≠ 0) then none
    else
      let payload := (bs.drop (f 0 8)).take (f 8 8)
      let src := if bit op 7 then unzstd payload else some payload
      src.map fun src => ⟨src, f 16 8, f 24 1, f 25 1, op % 4, f 27 1, f 32 4, f 36 4⟩

/-- Element `i` of a packed list of codes of `b` bits. -/
def packedAt (bs : List Byte) (b i : Nat) : Nat :=
  bits (leField bs (b * i / 8) (b / 8 + 2)) ((b * i) % 8 + b - 1) ((b * i) % 8)

/-- Codes of `b` bits packed into bytes, the first in the lowest bits. -/
def packCodes (b : Nat) (l : List Nat) : List Byte :=
  leBytes (ceilDiv (b * l.length) 8) (l.foldr (fun v n => v % 2 ^ b + n * 2 ^ b) 0)

/-- The value that a source code stands for, where the package gives all that it depends on. -/
def sourceVal (fmt code : Nat) : Option FVal :=
  match plainFloat fmt with
  | some f => some (f.decode code)
  | none => if fmt = 4 then some (.ofInt (sext 8 code)) else if fmt = 5 then some (.ofInt (sext 32 code)) else none

/-- Whether a source code is a value that no scale makes finite: a NaN or an infinity (R450). -/
def sourceBad (fmt code : Nat) : Bool :=
  match mxElement fmt with
  | some (f, _) => !(f.decode code).isFin
  | none => (sourceVal fmt code).any fun v => !v.isFin

/-- The bytes that a section writes: known ones, or a length of open ones, for the manual does not say where the scales of
an MX or narrow integer source come from; none where the section is refused (R450). The manual does not say either where the
random bits of SR come from: `free` numbers free values, one for each element, so that an SR result is one of R94's two. -/
def Section.out (x : Section) (free : Nat) : Option (List Byte ⊕ Nat) :=
  if x.op = 0 then some (.inl x.src)
  else
    let n := x.rows * x.cols
    let sb := (fmtBits x.srcFmt).getD 8
    let db := (fmtBits x.dstFmt).getD 8
    let converts := x.op % 2 = 1
    let codes := (List.range n).map fun i => packedAt x.src sb i
    let turn (l : List Nat) : List Nat :=
      if x.op < 2 then l else (List.range n).map fun i => l.getD ((i % x.rows) * x.cols + i / x.rows) 0
    if n = 0 ∨ x.src.length ≠ ceilDiv (sb * n) 8 ∨ (¬ converts ∧ x.srcFmt ≠ x.dstFmt) then none
    else if converts ∧ codes.any (sourceBad x.srcFmt) then none
    else if ¬ converts ∨ x.srcFmt = x.dstFmt then some (.inl (packCodes db (turn codes)))
    else if (sourceVal x.srcFmt 0).isNone then some (.inr (ceilDiv (db * n) 8))
    else
      let vals := codes.map fun c => (sourceVal x.srcFmt c).getD .zero
      match mxElement x.dstFmt with
      | some (f, emax) =>
        if x.cols % 32 ≠ 0 then none
        else
          let vals := vals.map (viaBf16 x.srcFmt)
          let out := (List.range (n / 32)).flatMap fun b =>
            (quantise f emax (rndOf x.rnd) ((vals.drop (32 * b)).take 32)).1
          some (.inl (packCodes db (turn out)))
      | none =>
        let random (i : Nat) : Nat := (Config.freeBits (free + i)).toNat % 65536
        some (.inl (packCodes db (turn (vals.zipIdx.map fun v =>
          (convert x.dstFmt x.rnd false true (random v.2) (x.srcFmt = 5) v.1).1))))

/-- The length of what a section writes. -/
def outLen : List Byte ⊕ Nat → Nat
  | .inl l => l.length
  | .inr n => n

/-- What a package writes, as image offsets; none where a section is refused or the written ranges leave the part from
`lo` up to `hi` or overlap (R449, R450). `free` numbers the first free value of the package; a section's elements take theirs from its place on. -/
def brixahWrites (bs : List Byte) (lo hi free : Nat) : Option (List (Nat × (List Byte ⊕ Nat))) :=
  let outs := (List.range (leField bs 24 2)).map fun i =>
    (sectionAt bs i).bind fun x => (x.out (free + x.dst)).map fun o => (x.dst, o)
  if outs.any (·.isNone) then none
  else
    let l := outs.filterMap id
    let inside := l.all fun w => lo ≤ w.1 && w.1 + outLen w.2 ≤ hi
    let apart := l.zipIdx.all fun a => l.zipIdx.all fun b =>
      a.2 == b.2 || a.1.1 + outLen a.1.2 ≤ b.1.1 || b.1.1 + outLen b.1.2 ≤ a.1.1
    if inside ∧ apart then some l else none

/-- Whether a package has a ZSTD section, which needs its feature (Table 14.2). -/
def brixahUsesZstd (bs : List Byte) : Bool := (List.range (leField bs 24 2)).any fun i => bit (leField bs (128 + 48 * i + 26) 1) 7

/-- The checks of R492 on the device ranges that a package of a writable load writes. -/
def State.layable (s : State) (fn base : Nat) (l : List (Nat × (List Byte ⊕ Nat))) : Option Nat × State :=
  l.foldl (fun acc w => if acc.1.isSome then acc else acc.2.hostCheck fn (base + w.1) (outLen w.2) true) (none, s)

/-- The writes of a package laid out from an address on; the free values that `brixahWrites` numbered are used up. -/
def State.layOut (s : State) (base : Nat) (l : List (Nat × (List Byte ⊕ Nat))) : State :=
  let s : State := { s with free := s.free + (l.map fun w => w.1 + outLen w.2).foldl max 0 }
  s.each l fun s w => match w.2 with
    | .inl bs => s.storeHbm (base + w.1) bs
    | .inr n => s.forget (base + w.1) (base + w.1 + n)

/-! ### Loads (R442 to R444, R451 to R453) -/

/-- Whether the mezzanine bytes from `o` on lie in slices of the context's halls (R443). -/
def mezInside (x : Ctx) (o n : Nat) : Bool :=
  n != 0 && o + n ≤ 160 * 0x300000 && (List.range ((o + n - 1) / 0x1E00000 + 1 - o / 0x1E00000)).all fun i =>
    bit x.named (o / 0x1E00000 + i)

/-- The requests of a Garrid load, of up to 1 MiB each (R538). -/
def State.bulkReads (s : State) (l : Load) : State :=
  s.each (List.range (ceilDiv l.bytes 0x100000)) fun s i =>
    s.post
      { type := .bulkRead, ddev := BitVec.ofNat 16 l.peer, dst := ⟨0, 0⟩, sdev := BitVec.ofNat 16 s.deviceId, src := ⟨0, 0⟩
        frame := BitVec.ofNat 16 s.frame, xfer := l.xfer, offset := BitVec.ofNat 64 (0x100000 * i)
        dest := BitVec.ofNat 64 l.src, bytes := BitVec.ofNat 32 (min 0x100000 (l.bytes - 0x100000 * i)) }

/-- The transfer ids in use. -/
def State.transfers (s : State) : List W64 :=
  s.ctxs.flatMap fun e => (e.2.loads.filter (·.garrid)).map (·.xfer) ++ (e.2.pkg.bind (·.xfer)).toList

/-- A transfer id that the device assigns; which one is open (R538). -/
def State.newTransfer (s : State) : W64 × State :=
  let used := s.transfers
  let cand := s.freeValue
  let x := if used.contains cand then
      (((List.range (used.length + 1)).map fun i => cand + BitVec.ofNat 64 i).find? fun x => !used.contains x).getD cand
    else cand
  (x, s.drawn)

/-- The fetch of a load begins. -/
def State.fetchLoad (s : State) (l : Load) : State :=
  if l.garrid then s.bulkReads l else s.emit (.hostRead l.src l.bytes)

/-- A load accepted: its staging range is placed and its fetch begins (R451). -/
def State.startLoad (s : State) (c : CmdRef) (ctx : Nat) (l : Load) : State :=
  let n := max 1 (ceilDiv l.bytes 65536)
  if 64 ≤ (s.ctx ctx).ranges.length then s.done c Code.CTX_RANGES
  else match s.place (s.ctx ctx).hallList n with
    | (none, s) => s.done c Code.CTX_NO_MEMORY
    | (some p, s) =>
      let s := s.addRange ctx p n 6 true true 0 false
      let (x, s) := if l.garrid then s.newTransfer else (0, s)
      let l := { l with staging := p, xfer := x, began := s.monoNs }
      let s := s.onCtx ctx fun x => { x with loads := x.loads ++ [l] }
      if l.toData.isNone then
        (s.onVer ctx l.model l.slot fun v => if v.state = .retired then { v with state := .staging, pin := l.pin, mez := l.mez }
          else v).fetchLoad l
      else s.fetchLoad l

/-- Room for `n` more resident images, after evictions where they help (R442). -/
def State.imageRoomIn (s : State) (n : Nat) : Nat → Bool × State
  | 0 => (decide (s.images + n ≤ 256), s)
  | fuel + 1 =>
    if s.images + n ≤ 256 then (true, s)
    else match s.evictOne with
      | some s => s.imageRoomIn n fuel
      | none => (false, s)

/-- Room for `n` more, with as many evictions as there can be images. -/
def State.imageRoom (s : State) (n : Nat) : Bool × State := s.imageRoomIn n 256

/-- `LOAD_SHARD`: fetches a shard into a version slot that is RETIRED or STAGING (R442, R443, R451, R456). -/
def execLoadShard (ring : RingId) (seq : W32) (s : State) : Host.Outcome State Fault Refusal :=
  .next (s.withCmd ring.toNat seq.toNat 0x30 fun c k s =>
    let ctx := k.ctx
    let x := s.ctx ctx
    let (m, slot, opts) := (k.at_ 16 1, k.at_ 17 1, k.at_ 18 1)
    let st := (x.ver m slot).state
    let mez := if bit opts 1 then some (k.at_ 40 8, k.at_ 48 4, k.at_ 52 4) else none
    if ¬ x.state.takesWork then s.done c Code.CTX_STATE_INVALID
    else if mez.any fun w => !mezInside x w.2.2 w.2.1 then s.done c Code.CMD_ENCODING
    else if st ≠ .retired ∧ st ≠ .staging then s.done c Code.VERSION_SLOT_BUSY
    else
      let (room, s) := if st = .retired then s.imageRoom 1 else (true, s)
      if ¬ room then s.done c Code.CACHE_FULL
      else
        s.startLoad c ctx
          { cmd := c, model := m, slot := slot, toData := none, pin := bit opts 0 || bit opts 1, mez := mez
            garrid := bit opts 2, peer := k.at_ 20 2, src := k.at_ 24 8, bytes := k.at_ 32 8, staging := 0, began := 0 })

/-- `LOAD_DATA`: fetches a shard that is laid out into a DATA range (R453). -/
def execLoadData (ring : RingId) (seq : W32) (s : State) : Host.Outcome State Fault Refusal :=
  .next (s.withCmd ring.toNat seq.toNat 0x31 fun c k s =>
    let x := s.ctx k.ctx
    let dest := k.at_ 40 8
    if ¬ x.state.takesWork then s.done c Code.CTX_STATE_INVALID
    else if ¬ ((x.rangeAt dest 1).any fun r => r.kind == 1) then s.done c Code.CMD_ENCODING
    else
      s.startLoad c k.ctx
        { cmd := c, model := 0, slot := 0, toData := some dest, pin := false, mez := none, garrid := bit (k.at_ 18 1) 2
          peer := k.at_ 20 2, src := k.at_ 24 8, bytes := k.at_ 32 8, staging := 0, began := 0 })

/-- The load of a ring's command that has a SEQ, with its context. -/
def State.loadOf (s : State) (ring seq : Nat) : Option (Nat × Load) :=
  match (s.ring ring).cmds.find? (·.seq == seq) with
  | none => none
  | some k => (s.ctxs.flatMap fun e => (e.2.loads.filter fun l => decide (l.cmd = ⟨ring, k.id⟩)).map fun l => (e.1, l)).head?

/-- The pages of an image marked as a version's state asks, and its range with them (Table 9.5, R276, R452, R454). -/
def State.markImage (s : State) (c : Nat) (v : Version) (verified : Bool) : State :=
  let tier := if v.mez.isSome then 1 else if v.pin then 0 else 2
  let wr := !verified && v.state == .staging
  (s.setPot v.base v.pages (potWord wr true tier 3 verified v.pin c (s.ctx c).epoch v.base)).onCtx c fun x =>
    { x with ranges := x.ranges.map fun r => if r.base = v.base then { r with wr := wr } else r }

/-- A shard that stays QUARANTINED: its version is QUARANTINED and the load completes with a code (Table 13.6). -/
def State.quarantineShard (s : State) (ctx : Nat) (l : Load) (shard code : Nat) : State :=
  let s := s.endLoad ctx l
  let s := if l.toData.isSome then s else s.onVer ctx l.model l.slot fun v =>
    { v with
      state := if v.state = .staging then .quarantined else v.state
      quarantined := if v.quarantined.contains shard then v.quarantined else v.quarantined ++ [shard] }
  let s := if code = Code.DIGEST_FAIL then s.count Reg.CTX_DIGEST_FAILS 1 else s
  (s.ctxCode ctx code).done l.cmd code

/-- A load that ends with a code and leaves the version as it is. The codes of Table 13.11 are recorded for the context. -/
def State.failLoad (s : State) (ctx : Nat) (l : Load) (code : Nat) : State :=
  let s := s.endLoad ctx l
  (if code / 256 = 6 then s.ctxCode ctx code else s).done l.cmd code

/-- A shard has verified: it counts, the version may be complete, and the context may leave LOADING (R430, R452). -/
def State.shardVerified (s : State) (ctx : Nat) (l : Load) (shard : Nat) : State :=
  let s := (s.endLoad ctx l).onCtx ctx fun x => { x with shardsVerified := x.shardsVerified + 1 }
  let s := if l.toData.isSome then s
    else
      let s := s.onVer ctx l.model l.slot fun v =>
        { v with verified := v.verified ++ [shard], quarantined := v.quarantined.filter (· ≠ shard) }
      let v := (s.ctx ctx).ver l.model l.slot
      if v.verified.length = v.shards ∧ v.state = .staging then
        let s := s.meetErrors (65536 * v.base) (65536 * v.pages)
        let d := sha256 (s.bytesAt (65536 * v.base) (65536 * v.pages))
        (s.onVer ctx l.model l.slot fun v => { v with state := .verified, digest := d, verifiedAt := s.serial }).markImage ctx v true
      else s
  (s.leaveLoading ctx).complete l.cmd 0 (if l.toData.isSome then 0 else shard) 0

/-- The image of a slot for its first shard: placed as R444 gives, with what the header fixes for the slot. The code of a
refusal. -/
def State.newImage (s : State) (ctx : Nat) (l : Load) (bs : List Byte) : Option Nat × State :=
  let n := leField bs 40 8 / 65536
  let v := (s.ctx ctx).ver l.model l.slot
  if 64 ≤ (s.ctx ctx).ranges.length then (some Code.CTX_RANGES, s)
  else if v.mez.any fun w => leField bs 40 8 < w.1 + w.2.1 then (some Code.CMD_ENCODING, s)
  else match s.place (s.ctx ctx).hallList n with
    | (none, s) => (some Code.CTX_NO_MEMORY, s)
    | (some p, s) =>
      let tier := if v.mez.isSome then 1 else if v.pin then 0 else 2
      (none, (s.addRange ctx p n 3 true true tier v.pin).onVer ctx l.model l.slot fun v =>
        { v with base := p, pages := n, modelId := leField bs 8 8, version := leField bs 16 4, shards := leField bs 22 2
                 imageBytes := leField bs 40 8 })

/-- The checks of a fetched package after its digest, and its layout (R450 to R453, Table 13.6). -/
def State.checkShard (s : State) (ctx : Nat) (l : Load) (bs : List Byte) : State :=
  let shard := leField bs 20 2
  let off := leField bs 32 8
  let bad (s : State) : State := s.quarantineShard ctx l shard Code.BRIXAH_FORMAT
  if ¬ brixahHeaderOk bs then bad s
  else if brixahUsesZstd bs ∧ ¬ s.feature featZstd then s.failLoad ctx l Code.FEATURE_NOT_ACCEPTED
  else match l.toData with
    | some dest =>
      let room := ((s.ctx ctx).rangeAt dest 1).map fun r => 65536 * (r.base + r.pages) - dest
      (match brixahWrites bs off (min (leField bs 40 8) (room.getD 0)) s.free with
      | none => bad s
      | some w =>
        let (refused, s) := s.layable (s.ringFn l.cmd.ring) dest w
        match refused with
        | some code => s.failLoad ctx l code
        | none => (s.layOut dest w).shardVerified ctx l shard)
    | none =>
      let v := (s.ctx ctx).ver l.model l.slot
      let first := v.pages = 0
      if ¬ first ∧ (v.modelId ≠ leField bs 8 8 ∨ v.version ≠ leField bs 16 4 ∨ v.shards ≠ leField bs 22 2
          ∨ v.imageBytes ≠ leField bs 40 8 ∨ v.verified.contains shard) then s.failLoad ctx l Code.SHARD_MISMATCH
      else
        let (refused, s) := if first then s.newImage ctx l bs else (none, s)
        match refused with
        | some code => s.failLoad ctx l code
        | none =>
          let v := (s.ctx ctx).ver l.model l.slot
          let top := ((v.parts.filter fun p => off < p.2).map (·.2)).foldl min v.imageBytes
          match brixahWrites bs off top s.free with
          | none => bad s
          | some w =>
            ((s.layOut (65536 * v.base) w).onVer ctx l.model l.slot fun v =>
              { v with parts := v.parts.filter (·.1 ≠ shard) ++ [(shard, off)] }).shardVerified ctx l shard

/-- `SHARD_FETCH_DONE`: the package of a load has arrived, over PCIe as `r` answers or over Garrid in its staging range, and
is checked: a digest mismatch is re-fetched up to 3 times (R451, Table 13.6). -/
def execShardFetchDone (ring : RingId) (seq : W32) (r : HostRead) (s : State) : Host.Outcome State Fault Refusal :=
  .next <|
    match s.loadOf ring.toNat seq.toNat with
    | none => s
    | some (ctx, l) =>
      let go (s : State) (bs : List Byte) : State :=
        if brixahDigestOk bs then s.checkShard ctx l bs
        else if l.retries < 3 then
          let l' := { l with retries := l.retries + 1, got := 0 }
          let s := s.onCtx ctx fun x => { x with loads := x.loads.map fun y => if y = l then l' else y }
          let shard := leField bs 20 2
          (if l.toData.isSome then s else s.onVer ctx l.model l.slot fun v =>
            { v with quarantined := if v.quarantined.contains shard then v.quarantined else v.quarantined ++ [shard] }).fetchLoad l'
        else s.quarantineShard ctx l (leField bs 20 2) Code.DIGEST_FAIL
      if l.garrid then (if l.got < l.bytes then s else go s (s.bytesAt (65536 * l.staging) l.bytes))
      else match r with
        | .failed => (s.endLoad ctx l).hostFail l.cmd
        | .data bs => if bs.length ≠ l.bytes then s else go (s.writeBytes (65536 * l.staging) bs) bs

/-- `SHARD_TIMEOUT`: a fetch that has not finished within CTX_LOAD_TIMEOUT ends (R451, Table 13.6). -/
def execShardTimeout (ring : RingId) (seq : W32) (s : State) : Host.Outcome State Fault Refusal :=
  .next <|
    match s.loadOf ring.toNat seq.toNat with
    | none => s
    | some (ctx, l) =>
      let s := if l.toData.isSome then s else s.onVer ctx l.model l.slot fun v => { v with timeouts := min 255 (v.timeouts + 1) }
      (s.failLoad ctx l Code.SHARD_TIMEOUT).raise { src := 0x47, ctx := some ctx, code := Code.SHARD_TIMEOUT }

/-! ### Versions (R448, R454, R456 to R459) -/

/-- A version retired: its range is freed (R456, R459). -/
def State.retireVersion (s : State) (c m k : Nat) : State :=
  let v := (s.ctx c).ver m k
  let s := if v.evicted.isNone ∧ v.pages ≠ 0 then s.dropRange c v.base else s
  s.onCtx c fun x => x.setVer m k {}

/-- `SWITCH_VERSION`: requests a switch at the landing of a target frame (R458). -/
def execSwitchVersion (ring : RingId) (seq : W32) (s : State) : Host.Outcome State Fault Refusal :=
  .next (s.withCmd ring.toNat seq.toNat 0x32 fun c k s =>
    if ¬ (s.ctx k.ctx).state.takesWork then s.done c Code.CTX_STATE_INVALID
    else s.onCtx k.ctx fun x =>
      { x with reqs := x.reqs ++ [{ cmd := some c, serial := k.serial, target := k.at_ 24 8, kind := .switch (k.at_ 16 1) }] })

/-- The slot that a switch makes ACTIVE: the one beside the ACTIVE one; with none ACTIVE the VERIFIED one. -/
def Ctx.otherSlot (x : Ctx) (m : Nat) : Nat :=
  match x.activeSlot m with
  | some k => 1 - k
  | none => ([0, 1].find? fun k => (x.ver m k).state == .verified).getD 0

/-- A switch acts at step 5 (R458, R459). -/
def State.switchVersion (s : State) (c m : Nat) (cmd : Option CmdRef) : State :=
  let x := s.ctx c
  let k := x.otherSlot m
  let v := x.ver m k
  let finish (s : State) (code r0 : Nat) : State := match cmd with
    | some r => s.complete r code r0 0
    | none => s
  if v.state ≠ .verified ∨ s.fr.snap ≤ v.verifiedAt then finish (s.ctxCode c Code.VERSION_NOT_READY) Code.VERSION_NOT_READY 0
  else
    let s := s.onVer c m k fun v => { v with state := .active }
    let s := match x.activeSlot m with
      | some o =>
        if (x.ver m o).pins = 0 ∨ x.pool.isNone then s.retireVersion c m o
        else s.onVer c m o fun v => { v with state := .draining }
      | none => s
    finish s 0 s.frame

/-- Every DRAINING version without pins retires at the end of step 5 (R459). -/
def State.retireDrained (s : State) : State :=
  s.each (s.ctxs.flatMap fun e => (e.2.models.filter fun m => m.2.state == .draining && m.2.pins == 0).map fun m => (e.1, m.1))
    fun s d => s.retireVersion d.1 (d.2 / 2) (d.2 % 2)

/-- `DISCARD_VERSION`: retires a version that is STAGING, VERIFIED or QUARANTINED; loads into it are aborted (R456). -/
def execDiscardVersion (ring : RingId) (seq : W32) (s : State) : Host.Outcome State Fault Refusal :=
  .next (s.withCmd ring.toNat seq.toNat 0x33 fun c k s =>
    let (m, slot) := (k.at_ 16 1, k.at_ 17 1)
    let x := s.ctx k.ctx
    if ¬ x.state.takesWork ∨ (x.ver m slot).state ∉ [VerState.staging, .verified, .quarantined] then
      s.done c Code.CTX_STATE_INVALID
    else
      let s := s.each (x.loads.filter fun l => l.model == m && l.slot == slot && l.toData.isNone) fun s l =>
        (s.endLoad k.ctx l).done l.cmd Code.CMD_ABORTED
      (s.retireVersion k.ctx m slot).done c 0)

/-- `RESTORE_IMAGE`: an evicted image comes back into a new range as `host` answers its read, and its digest is checked
(R448). -/
def execRestoreImage (ring : RingId) (seq : W32) (host : HostRead) (s : State) : Host.Outcome State Fault Refusal :=
  .next (s.withCmd ring.toNat seq.toNat 0x34 fun c k s =>
    let ctx := k.ctx
    let (m, slot) := (k.at_ 16 1, k.at_ 17 1)
    let x := s.ctx ctx
    let v := x.ver m slot
    if ¬ x.state.takesWork ∨ v.evicted.isNone then s.done c Code.CTX_STATE_INVALID
    else
      let (room, s) := s.imageRoom 1
      if ¬ room then s.done c Code.CACHE_FULL
      else if 64 ≤ (s.ctx ctx).ranges.length then s.done c Code.CTX_RANGES
      else match s.place (s.ctx ctx).hallList v.pages, host with
        | (none, s), _ => s.done c Code.CTX_NO_MEMORY
        | (some _, s), .failed => s.hostFail c
        | (some p, s), .data bs =>
          let bs := bs.take (65536 * v.pages)
          let s := s.addRange ctx p v.pages 3 true false 2 v.pin
          let s := (s.writeBytes (65536 * p) bs).onVer ctx m slot fun v => { v with base := p, evicted := none }
          if bs.length = 65536 * v.pages ∧ sha256 bs = v.digest then
            (s.markImage ctx ((s.ctx ctx).ver m slot) true).complete c 0 (65536 * p) 0
          else
            let s := s.onVer ctx m slot fun v => { v with state := .quarantined }
            (((s.markImage ctx ((s.ctx ctx).ver m slot) false).count Reg.CTX_DIGEST_FAILS 1).ctxCode ctx Code.DIGEST_FAIL).done c
              Code.DIGEST_FAIL)

/-- `DIGEST_RECHECK`: the resident digest of an image is recomputed; a mismatch acts at the first landing whose snapshot
follows (R454). `passEnd` says that the image ends a pass over all images. -/
def execDigestRecheck (ctx : CtxId) (model : BitVec 4) (slot : BitVec 1) (passEnd : Bool) (s : State) :
    Host.Outcome State Fault Refusal :=
  let (c, m, k) := (ctx.toNat, model.toNat, slot.toNat)
  let v := (s.ctx c).ver m k
  .next <|
    if ¬ bit (s.reg Reg.CTX_RECHECK) 8 then s
    else
      let s := if v.evicted.isSome then s else s.meetErrors (65536 * v.base) (65536 * v.pages)
      let s := if v.evicted.isSome ∨ v.state ∉ [VerState.verified, .active, .draining]
          ∨ sha256 (s.bytesAt (65536 * v.base) (65536 * v.pages)) = v.digest then s
        else s.onVer c m k fun v => { v with recheckFailed := v.recheckFailed.or (some s.serial) }
      if passEnd then s.setReg Reg.CTX_RECHECK_PASS ((s.reg Reg.CTX_RECHECK_PASS + 1) % 2 ^ 32) else s

/-- The re-check failures found before the snapshot act at step 5 (R454): the version is QUARANTINED, DIGEST_FAIL is raised,
and the context of an ACTIVE or DRAINING one becomes FAULTED at step 6 of this landing. -/
def State.recheckFailures (s : State) : State :=
  let failed := s.ctxs.flatMap fun e =>
    (e.2.models.filter fun m => !s.ctxLate e.1 && m.2.recheckFailed.any (· < s.fr.snap)).map fun m => (e.1, m.1)
  s.each failed fun s f =>
    let (c, m, k) := (f.1, f.2 / 2, f.2 % 2)
    let v := (s.ctx c).ver m k
    let s := s.onVer c m k fun v => { v with state := .quarantined, recheckFailed := none }
    let s := ((s.markImage c ((s.ctx c).ver m k) false).count Reg.CTX_DIGEST_FAILS 1).ctxCode c Code.DIGEST_FAIL
    let s := s.raise { src := 0x46, ctx := some c, code := Code.DIGEST_FAIL, inst := m }
    if v.state = .active ∨ v.state = .draining then
      s.onCtx c fun x => { x with fault := some (0, 0x46, Code.DIGEST_FAIL) }
    else s

end Sys2Proof.Machine
end

