-- ==== Sys2Proof/Machine/Contexts.lean ====
section
/-! DEFINITION. The commands that create, change, move and end contexts, and that give them kernels and epochs (13 R426 to R441,
R461 to R463, 14 R493, 10 R366, 17 R594 to R596). -/
namespace Sys2Proof.Machine

/-! ### Creation (R428 to R430) -/

/-- A free context id; which one is open. -/
def State.newCtxId (s : State) : Option Nat × State :=
  let cand := s.freeValue.toNat % 4096
  if (s.ctx cand).state = .free then (some cand, s.drawn)
  else ((List.range 4096).find? fun c => (s.ctx c).state = .free, s.drawn)

/-- The contexts that hold KEEP_MEMORY. -/
def State.keepers (s : State) : Nat := (s.ctxs.filter fun e => e.2.keepMemory && e.2.state != .free).length

/-- Whether a function may own one more context on some halls (R487). -/
def State.vfAllows (s : State) (fn mask : Nat) : Bool :=
  fn == 0 || match s.vf fn with
    | some v => mask &&& v.hallMask == mask && (s.ctxsOf fn).length < v.maxContexts
    | none => false

/-- The pool that a CREATE_CONTEXT asks for (Tables 12.2 and 14.4). -/
def poolOf (at_ : Nat → Nat → Nat) : Pool :=
  { base := 0, rowsMax := at_ 28 4, seqMax := at_ 32 4, setPages := at_ 36 4, blockPos := at_ 40 4, setsMax := at_ 44 4
    poolSets := at_ 48 4 }

/-- Whether a hall mask names a hall and only halls in service. -/
def State.maskOk (s : State) (mask : Nat) : Bool := mask != 0 && (bitsOf mask 16).all s.online

/-- A context's pool and reservations placed for its halls, in ascending order: its pool, if it has one, and what each hall
reserves (R400, R429). None where something cannot be placed. -/
def State.placeContext (s : State) (c : Nat) (pool : Option Pool) : Bool × State :=
  let halls := (s.ctx c).hallList
  let runs := (match pool with | some p => [(halls, p.pages, 2, true, true)] | none => []) ++ halls.flatMap reserveRuns
  match s.takeAll c runs [] with
  | (none, s) => (false, s)
  | (some got, s) =>
    let s := s.each got fun s g => s.zeroPages g.1 g.2
    let (poolRun, rest) := if pool.isSome then (got.head?, got.drop 1) else (none, got)
    (true, s.onCtx c fun x =>
      { x with
        ranges := match poolRun with | some g => [⟨g.1, g.2, 2, true, true⟩] | none => []
        pool := match poolRun, pool with | some g, some p => some { p with base := g.1, freeShown := p.poolSets } | _, _ => none
        reserves := pairReserves halls rest })

/-- `CREATE_CONTEXT`: creates a context with its reservations and its pool, or refuses in the order of Table 13.2 (R428 to
R430, R487). -/
def execCreateContext (ring : RingId) (seq : W32) (s : State) : Host.Outcome State Fault Refusal :=
  .next (s.withCmd ring.toNat seq.toNat 0x10 fun c k s =>
    let fn := s.ringFn ring.toNat
    let mask := k.at_ 18 2
    let keep := bit (k.at_ 16 1) 7
    let pool := if bit (k.at_ 17 1) 0 then some (poolOf k.at_) else none
    if ¬ s.vfAllows fn mask then s.done c Code.CMD_PRIVILEGE
    else match s.newCtxId with
      | (none, s) => s.done c Code.CTX_NO_ID
      | (some id, s) =>
        if ¬ s.maskOk mask then s.done c Code.CTX_HALLS_INVALID
        else if keep ∧ 8 ≤ s.keepers then s.done c Code.KEEP_MEMORY_LIMIT
        else if pool.any fun p => !p.paramsOk then s.done c Code.POOL_CONFIG
        else
          let s := s.onCtx id fun _ =>
            { fn := fn, prio := bits (k.at_ 16 1) 2 0, keepMemory := keep, job := k.at_ 20 2, epoch := k.at_ 22 2
              initShards := k.at_ 24 2, named := mask }
          match s.placeContext id pool with
          | (false, s) => (s.onCtx id fun _ => {}).done c Code.CTX_NO_MEMORY
          | (true, s) => (((s.setCtx id .loading).writeSeqTable id).leaveLoading id).complete c 0 id 0)

/-- `DESTROY_CONTEXT`: frees a context at once, or at step 6 of the next landing when it holds halls (R427). -/
def execDestroyContext (ring : RingId) (seq : W32) (s : State) : Host.Outcome State Fault Refusal :=
  .next (s.withCmd ring.toNat seq.toNat 0x11 fun c k s => s.askDestroy k.ctx (some c))

/-! ### Ranges and halls (R431, R432, R437) -/

/-- `RANGE_CREATE`: creates a DATA range in a named region or, with AUTO, in the regions of the context's halls (R431). -/
def execRangeCreate (ring : RingId) (seq : W32) (s : State) : Host.Outcome State Fault Refusal :=
  .next (s.withCmd ring.toNat seq.toNat 0x12 fun c k s =>
    let x := s.ctx k.ctx
    let region := k.at_ 20 1
    if ¬ x.state.takesWork then s.done c Code.CTX_STATE_INVALID
    else if region ≠ 0xFF ∧ ¬ s.regionOnline region then s.done c Code.CTX_NO_MEMORY
    else if 64 ≤ x.ranges.length then s.done c Code.CTX_RANGES
    else match s.place (if region = 0xFF then x.hallList else [region]) (k.at_ 16 4) with
      | (none, s) => s.done c Code.CTX_NO_MEMORY
      | (some p, s) =>
        (s.addRange k.ctx p (k.at_ 16 4) 1 (bit (k.at_ 21 1) 0) (bit (k.at_ 21 1) 1) 0 false).complete c 0 (65536 * p) 0)

/-- A range removed with what it held: a pool, an image or the staging of a load (R432). -/
def State.removeRange (s : State) (c p : Nat) : State :=
  match (s.ctx c).ranges.find? (·.base == p) with
  | none => s
  | some r =>
    let s := if r.kind ≠ 2 then s
      else
        let s := match (s.ctx c).pool.bind (·.batch) with
          | some b => s.done b.cmd Code.CMD_ABORTED
          | none => s
        s.onCtx c fun x => { x with pool := none }
    let s := s.each (if r.kind = 3 then (s.ctx c).models.filter fun m => m.2.base == p && m.2.resident else []) fun s m =>
      s.onCtx c fun x => { x with models := mapSet {} x.models m.1 {} }
    let s := s.each (if r.kind = 6 then (s.ctx c).loads.filter (·.staging == p) else []) fun s l =>
      (s.endLoad c l).done l.cmd Code.CMD_ABORTED
    s.dropRange c p

/-- Whether a range holds the image of a context's kernel, in progress or submitted (R432). -/
def Ctx.holdsImage (x : Ctx) (r : Range) : Bool :=
  (x.kernel.toList ++ x.submitted.toList ++ x.queued.toList).any fun k => 65536 * r.base ≤ k.image && k.image < 65536 * (r.base + r.pages)

/-- `RANGE_REMOVE`: removes a range at once, or at step 6 of the next landing of a context that holds halls (R432). -/
def execRangeRemove (ring : RingId) (seq : W32) (s : State) : Host.Outcome State Fault Refusal :=
  .next (s.withCmd ring.toNat seq.toNat 0x13 fun c k s =>
    let x := s.ctx k.ctx
    let a := k.at_ 16 8
    if ¬ x.state.takesWork then s.done c Code.CTX_STATE_INVALID
    else match x.ranges.find? fun r => 65536 * r.base == a with
      | none => s.done c Code.CTX_RANGES
      | some r =>
        if x.holdsImage r then s.done c Code.CTX_STATE_INVALID
        else if (s.heldBy k.ctx).isEmpty then (s.removeRange k.ctx r.base).done c 0
        else s.onCtx k.ctx fun x =>
          { x with reqs := x.reqs ++ [{ cmd := some c, serial := k.serial, target := 0, kind := .rangeRemove r.base }] })

/-- `HALL_SET`: a new hall mask at the landing of a target frame; what added halls need is reserved now (R437, R487). -/
def execHallSet (ring : RingId) (seq : W32) (s : State) : Host.Outcome State Fault Refusal :=
  .next (s.withCmd ring.toNat seq.toNat 0x14 fun c k s =>
    let x := s.ctx k.ctx
    let mask := k.at_ 16 2
    let fn := s.ringFn ring.toNat
    if ¬ x.state.takesWork ∨ x.state = .suspect then s.done c Code.CTX_STATE_INVALID
    else if ¬ s.maskOk mask then s.done c Code.CTX_HALLS_INVALID
    else if fn ≠ 0 ∧ (s.vf fn).all fun v => mask &&& v.hallMask != mask then s.done c Code.CMD_PRIVILEGE
    else
      let added := (bitsOf mask 16).filter fun h => !x.reserves.any fun r => r.hall == h
      match s.takeAll k.ctx (added.flatMap reserveRuns) [] with
      | (none, s) => s.done c Code.CTX_NO_MEMORY
      | (some got, s) =>
        (s.each got fun s g => s.zeroPages g.1 g.2).onCtx k.ctx fun x =>
          { x with
            reserves := x.reserves ++ pairReserves added got
            reqs := x.reqs ++ [{ cmd := some c, serial := k.serial, target := k.at_ 24 8, kind := .hallSet mask }] })

/-- A hall set acts at step 6 (R437): what removed halls reserved is freed and what was saved of them is lost. -/
def State.setHalls (s : State) (c mask : Nat) : State :=
  let s := s.onCtx c fun x =>
    { x with named := mask, saved := x.saved.filter (fun e => bit mask (coreHall e.1))
             attachedLive := x.attachedLive.filter (fun e => bit mask (coreHall e.1)) }
  (s.trimReserves c).noteOffline [c]

/-! ### Packages (R461 to R463, R594 to R596) -/

/-- The live bytes that a context keeps for a core: its declared ranges, or what an attach brought (R438, R463). -/
def State.liveBytes (s : State) (c n : Nat) : List Byte :=
  let x := s.ctx c
  let total := x.live.foldl (fun t r => t + r.2) 0
  let brought := mapGet [] x.attachedLive n
  if brought ≠ [] then (brought ++ List.replicate (total - brought.length) 0).take total
  else
    let cells := (mapGet {} x.saved n).alcove
    x.live.flatMap fun r => (List.range r.2).map fun i => mapGet 0 cells (r.1 + i)

/-- The code of a version state (Table 13.7). -/
def VerState.code : VerState → Nat
  | .retired => 0 | .staging => 1 | .verified => 2 | .active => 3 | .draining => 4 | .quarantined => 5

def VerState.ofCode (n : Nat) : Option VerState :=
  [VerState.retired, .staging, .verified, .active, .draining, .quarantined][n]?

/-- The hall ordinal of a region in a hall list (R462). -/
def ordinalOf (halls : List Nat) (region : Nat) : Nat := if halls.contains region then halls.idxOf region else 0

/-- A record of a package and its contents (Table 13.8). -/
def pkgRecord (kind ordinal flags b3 pages version vstate pins : Nat) (contents : List Byte) : List Byte × List Byte :=
  (leBytes 1 kind ++ leBytes 1 ordinal ++ leBytes 1 flags ++ leBytes 1 b3 ++ leBytes 4 pages ++ leBytes 4 version
    ++ leBytes 1 vstate ++ leBytes 1 0 ++ leBytes 2 pins ++ List.replicate 16 0 ++ sha256 contents, contents)

/-- The record of a range. -/
def State.rangeRecord (s : State) (c : Nat) (r : Range) : List Byte × List Byte :=
  let x := s.ctx c
  let contents := s.bytesAt (65536 * r.base) (65536 * r.pages)
  let o := ordinalOf x.hallList (r.base / 2 ^ 20)
  let rw := b2n r.rd + 2 * b2n r.wr
  match (if r.kind = 3 then x.models.find? fun m => m.2.base == r.base && m.2.resident else none) with
  | some (k, v) => pkgRecord 3 o (rw + 4 * b2n v.pin + 8 * b2n v.mez.isSome) (k / 2 * 16 + k % 2) r.pages v.version v.state.code
      v.pins contents
  | none => pkgRecord r.kind o rw 0 r.pages 0 0 0 contents

/-- The package of a context (Table 13.8), for a frame. -/
def State.package (s : State) (c frame : Nat) : List Byte :=
  let x := s.ctx c
  let halls := x.hallList
  let recs := x.ranges.map (s.rangeRecord c)
    ++ halls.zipIdx.map fun h => pkgRecord 4 h.2 0 0 1152 0 0 0 ((hallCores h.1).flatMap (s.liveBytes c))
  let p := x.pool
  let par (f : Pool → Nat) : List Byte := leBytes 4 ((p.map f).getD 0)
  let head := leBytes 4 0x43585242 ++ leBytes 2 1 ++ leBytes 1 halls.length ++ leBytes 1 (128 * b2n x.keepMemory + x.prio)
    ++ leBytes 2 x.job ++ leBytes 2 x.epoch ++ leBytes 2 recs.length ++ leBytes 2 s.deviceId ++ leBytes 8 frame
    ++ leBytes 4 (x.live.foldl (fun t r => t + r.2) 0) ++ leBytes 4 0 ++ par (·.rowsMax) ++ par (·.seqMax) ++ par (·.setPages)
    ++ par (·.blockPos) ++ par (·.setsMax) ++ par (·.poolSets) ++ List.replicate 8 0
  let records := recs.flatMap (·.1)
  head ++ sha256 (head ++ records) ++ List.replicate 32 0 ++ records ++ recs.flatMap (·.2)

/-- The place of an alcove offset among the live bytes of a core. -/
def livePlace : List (Nat × Nat) → Nat → Option Nat
  | [], _ => none
  | r :: l, o => if r.1 ≤ o ∧ o < r.1 + r.2 then some (o - r.1) else (livePlace l o).map (r.2 + ·)

/-- The uncorrectable sectors and words in the contents of a context's package, as offset and length (Table 9.6). Over Garrid they are
not marked, for a packet has no place for it (DESIGN CHOICE, log entry 114). -/
def State.packagePoison (s : State) (c : Nat) : List (Nat × Nat) :=
  let x := s.ctx c
  let live := x.live.foldl (fun t r => t + r.2) 0
  let head := 128 + 64 * (x.ranges.length + x.hallList.length)
  let (at_, bad) := x.ranges.foldl (fun (acc : Nat × List (Nat × Nat)) r =>
    (acc.1 + 65536 * r.pages,
      acc.2 ++ (s.mem.ecc.filter fun e => e.uncorrectable && e.key / 65536 - r.base < r.pages && r.base ≤ e.key / 65536).map fun e =>
        (acc.1 + (e.key - 65536 * r.base), 32))) (head, [])
  bad ++ (x.hallList.flatMap hallCores).zipIdx.flatMap fun e =>
    (mapGet {} x.saved e.1 : SavedCore).poison.filterMap fun o => (livePlace x.live o).map fun p => (at_ + live * e.2 + p, 8)

/-- A package that has acted is sent to its destination, or found too large (R461, R538, R595, R596). It waits until the
context holds no hall and its step 7 is done. A DETACH then gives the page sets back to the pool on this device; the directory
that travels stays as it is (R407, R461). -/
def State.sendPackage (s : State) (c : Nat) : State :=
  match (s.ctx c).pkg with
  | none => s
  | some p =>
    if p.sent ∨ ¬ (s.heldBy c).isEmpty ∨ (s.ctx c).step7 then s
    else
      let s := s.writeSeqTable c
      let s := s.each (s.ctx c).ranges fun s r => s.meetErrors (65536 * r.base) (65536 * r.pages)
      let bs := s.package c p.frame
      let bad := s.packagePoison c
      let s := if p.isExport then s else s.onPool c fun p => { p with used := [], freeShown := p.poolSets }
      if p.destBytes < bs.length then (s.onCtx c fun x => { x with pkg := none }).done p.cmd Code.EXPORT_SPACE
      else
        let (xf, s) := if p.garrid then (some (s.newTransfer).1, s.newTransfer.2) else (none, s)
        let s := s.onCtx c fun x => { x with pkg := some { p with bytes := bs.length, sent := true, xfer := xf } }
        match xf with
        | none => (s.emit (.hostWrite p.dest bs)).each bad fun s e => s.emit (.hostPoison (p.dest + e.1) e.2)
        | some t => s.each (List.range (ceilDiv bs.length 4096)) fun s i =>
          let part := (bs.drop (4096 * i)).take 4096
          s.post
            { type := .bulkData, ddev := BitVec.ofNat 16 p.peer, dst := ⟨0, 0⟩, sdev := BitVec.ofNat 16 s.deviceId, src := ⟨0, 0⟩
              frame := BitVec.ofNat 16 s.frame, xfer := t, offset := BitVec.ofNat 64 (4096 * i)
              dest := BitVec.ofNat 64 p.dest, bytes := BitVec.ofNat 32 part.length, data := part }

/-- The request of a DETACH or an EXPORT. -/
def moveReq (k : Cmd) (c : CmdRef) (isExport : Bool) : Req :=
  let g := bit (k.at_ 16 1) 0
  { cmd := some c, serial := k.serial, target := k.at_ 40 8
    kind := if isExport then .exportTo g (k.at_ 18 2) (k.at_ 24 8) (k.at_ 32 8) else .detach g (k.at_ 18 2) (k.at_ 24 8) (k.at_ 32 8) }

/-- `DETACH`: a context leaves the device at the landing of a target frame (R461, R576). -/
def execDetach (ring : RingId) (seq : W32) (s : State) : Host.Outcome State Fault Refusal :=
  .next (s.withCmd ring.toNat seq.toNat 0x16 fun c k s =>
    if (s.ctx k.ctx).state ∉ [CtxState.ready, .running, .preempted] then s.done c Code.CTX_STATE_INVALID
    else s.onCtx k.ctx fun x => { x with reqs := x.reqs ++ [moveReq k c false] })

/-- `EXPORT`: a checkpoint package of a context, at the landing of a target frame, at once for a DETACHED one (R594). -/
def execExportCommand (ring : RingId) (seq : W32) (s : State) : Host.Outcome State Fault Refusal :=
  .next (s.withCmd ring.toNat seq.toNat 0x17 fun c k s =>
    let x := s.ctx k.ctx
    if x.state = .detached then
      if x.pkg.isSome then s.done c Code.CTX_STATE_INVALID
      else
        let p : PkgWrite :=
          { cmd := c, isExport := true, garrid := bit (k.at_ 16 1) 0, peer := k.at_ 18 2, dest := k.at_ 24 8
            destBytes := k.at_ 32 8, frame := x.changeFrame }
        ((s.acted c).onCtx k.ctx fun x => { x with pkg := some p }).sendPackage k.ctx
    else if x.state ∈ [CtxState.ready, .running, .preempted] then
      s.onCtx k.ctx fun x => { x with reqs := x.reqs ++ [moveReq k c true] }
    else s.done c Code.CTX_STATE_INVALID)

/-- `PACKAGE_WRITTEN`: the package of a context has been written, or its host write failed; its completion is posted and a
context that is not DETACHED may run again (R461, R595). -/
def execPackageWritten (ctx : CtxId) (ok : Bool) (s : State) : Host.Outcome State Fault Refusal :=
  let c := ctx.toNat
  .next <|
    match (s.ctx c).pkg with
    | none => s
    | some p =>
      if ¬ p.sent then s
      else
        let s := s.onCtx c fun x => { x with pkg := none }
        if ok then s.complete p.cmd 0 p.bytes p.frame else s.hostFail p.cmd

/-! ### Attach (R463) -/

/-- The records of a package. -/
def pkgRecords (bs : List Byte) : List (List Byte) :=
  (List.range (leField bs 12 2)).map fun i => (bs.drop (128 + 64 * i)).take 64

/-- The length of a record's contents (Table 13.8). -/
def recordLen (bs r : List Byte) : Nat := if leField r 0 1 = 4 then 250 * leField bs 24 4 else 65536 * leField r 4 4

/-- The contents of the records from an offset on. -/
def contentsFrom (bs : List Byte) : List (List Byte) → Nat → List (List Byte)
  | [], _ => []
  | r :: rest, o => (bs.drop o).take (recordLen bs r) :: contentsFrom bs rest (o + recordLen bs r)

/-- Whether a record keeps Table 13.8 in a package of `halls` halls. -/
def recordOk (halls : Nat) (r : List Byte) : Bool :=
  let f := leField r
  (f 0 1 ∈ [1, 2, 3, 4, 6]) && f 1 1 < halls && f 2 1 < 16 && bits (f 3 1) 3 1 == 0 && 1 ≤ f 4 4 && f 4 4 ≤ 0xFFE00 && f 12 1 ≤ 5
    && f 13 1 == 0 && f 14 2 ≤ 16384 && zeroBytes r 16 16

/-- Whether the header and the records of a package are well formed (Tables 13.8 and 13.9). -/
def packageOk (bs : List Byte) (p : Option Pool) : Bool :=
  let f := leField bs
  let recs := pkgRecords bs
  let count (k : Nat) : Nat := (recs.filter fun r => leField r 0 1 == k).length
  128 ≤ bs.length && f 0 4 == 0x43585242 && f 4 2 == 1 && 1 ≤ f 6 1 && f 6 1 ≤ 16 && bits (f 7 1) 6 3 == 0 && 1 ≤ f 12 2
    && f 12 2 ≤ 80 && f 24 4 ≤ 180224 && zeroBytes bs 28 4 && zeroBytes bs 56 8 && zeroBytes bs 96 32 && f 16 8 < 2 ^ 48
    && recs.all (recordOk (f 6 1)) && count 4 ≤ f 6 1 && recs.length - count 4 ≤ 64
    && count 2 == b2n p.isSome && p.all (fun p => p.paramsOk && (recs.find? fun r => leField r 0 1 == 2).any fun r =>
      leField r 4 4 == p.pages)
    && 128 + 64 * f 12 2 + recs.foldl (fun n r => n + recordLen bs r) 0 ≤ bs.length

/-- The sequence of a slot that the directory of an attached pool shows (Table 12.7, R406). -/
def Pool.readSeq (p : Pool) (dir : List Byte) (slot : Nat) : Sequence :=
  let f (o n : Nat) : Nat := leField dir (p.seqtabOff + 32 * slot + o) n
  let st := match f 0 1 with | 1 => SeqState.active | 2 => .stalled | 3 => .deferred | _ => .retired
  let fl := f 1 1
  let entry (i : Nat) : Nat := leField dir (p.listOff + 4 * p.setsMax * slot + 4 * i) 4
  let n := f 8 4
  { state := st, ver := b2n (bit fl 0), isNew := bit fl 2, code := f 2 2, pos := f 4 4, sets := (List.range n).map entry
    reserve := if bit fl 1 then some (entry n) else none, serial := f 12 4, tag := BitVec.ofNat 64 (f 16 8), frame := f 24 8 }

/-- The record of an attached pool, read from its directory (R404, R461). -/
def Pool.restored (p : Pool) (base pinModel : Nat) (dir : List Byte) : Pool :=
  let seqs := (List.range p.seqMax).map fun i => (i, { p.readSeq dir i with model := pinModel })
  let live := seqs.filter fun e => e.2 ≠ {}
  let used := live.flatMap fun e => e.2.sets ++ e.2.reserve.toList
  { p with
    base := base, seqs := live.foldl (fun m e => mapSet {} m e.1 e.2) [], used := used
    nextSerial := live.foldl (fun n e => max n (e.2.serial + 1)) 1, freeShown := p.poolSets - used.length }

/-- The header's pool parameters; all 0 without a pool (Table 13.8). -/
def packagePool (bs : List Byte) : Option Pool := if zeroBytes bs 32 24 then none else some (poolOf fun o n => leField bs (o + 4) n)

/-- An attached context with everything placed: its ranges filled, its versions, its pool and its live bytes. -/
def State.fillAttached (s : State) (c : Nat) (bs : List Byte) (got : List (Nat × Nat)) : State :=
  let halls := (s.ctx c).hallList
  let recs := (pkgRecords bs).zip (contentsFrom bs (pkgRecords bs) (128 + 64 * leField bs 12 2))
  let ranges := recs.filter fun r => leField r.1 0 1 != 4
  let s := s.each (ranges.zip got) fun s e =>
    let (r, p, n) := (e.1.1, e.2.1, e.2.2)
    let s := s.writeBytes (65536 * p) e.1.2
    let kind := leField r 0 1
    let fl := leField r 2 1
    let s := s.onCtx c fun x => { x with ranges := x.ranges ++ [⟨p, n, kind, bit fl 0, bit fl 1⟩] }
    if kind ≠ 3 then s
    else
      let v : Version :=
        { state := (VerState.ofCode (leField r 12 1)).getD .retired, base := p, pages := n, pin := bit fl 2
          version := leField r 8 4, pins := leField r 14 2, imageBytes := 65536 * n, digest := (r.drop 32).take 32 }
      let done := v.state ∈ [VerState.verified, .active, .draining]
      (s.onCtx c fun x => x.setVer (bits (leField r 3 1) 7 4) (bits (leField r 3 1) 0 0) v).setPot p n
        (potWord (bit fl 1) (bit fl 0) (if bit fl 3 then 1 else if bit fl 2 then 0 else 2) 3 done v.pin c (s.ctx c).epoch p)
  let saves := recs.filter fun r => leField r.1 0 1 == 4
  let n := leField bs 24 4
  let live := saves.flatMap fun r =>
    (hallCores (halls.getD (leField r.1 1 1) 0)).zipIdx.map fun k => (k.1, (r.2.drop (n * k.2)).take n)
  let s := s.onCtx c fun x => { x with attachedLive := live.foldl (fun m e => mapSet [] m e.1 e.2) [] }
  match packagePool bs, ranges.zip got |>.find? fun e => leField e.1.1 0 1 == 2 with
  | some p, some e => s.onCtx c fun x => { x with pool := some (p.restored e.2.1 x.pinModel e.1.2) }
  | _, _ => s

/-- `ATTACH`: creates a context from a package, read as `pkg` answers, on the halls it lists, and writes the new bases
(R463, Table 13.9); where the write of the bases fails, which the answer says, no context is left (R492; log entry 118). Images beyond the 256 of R442, after evictions, are a placement that fails (DEDUCED, log entry 109). -/
def execAttach (ring : RingId) (seq : W32) (pkg : AttachRead) (s : State) : Host.Outcome State Fault Refusal :=
  .next (s.withCmd ring.toNat seq.toNat 0x15 fun c k s =>
    match pkg with
    | .failed => s.hostFail c
    | .data bs written =>
      let f := leField bs
      let fn := s.ringFn ring.toNat
      let halls := (List.range (f 6 1)).map fun i => bits (k.at_ 40 8) (4 * i + 3) (4 * i)
      let mask := maskOf halls
      let recs := pkgRecords bs
      let bodies := contentsFrom bs recs (128 + 64 * f 12 2)
      if ¬ packageOk bs (packagePool bs) ∨ halls.eraseDups.length ≠ f 6 1 ∨ (bit (f 7 1) 7 ∧ 8 ≤ s.keepers)
          ∨ bs.length ≠ k.at_ 24 8 then s.done c Code.ATTACH_INCOMPATIBLE
      else if (bs.drop 64).take 32 ≠ sha256 (bs.take 64 ++ recs.flatten)
          ∨ ¬ (recs.zip bodies).all fun r => decide (r.1.drop 32 = sha256 r.2) then s.done c Code.ATTACH_DIGEST
      else if ¬ s.vfAllows fn mask then s.done c Code.CMD_PRIVILEGE
      else match s.newCtxId with
        | (none, s) => s.done c Code.CTX_NO_ID
        | (some id, s) =>
          let (room, s) := s.imageRoom (recs.filter fun r => leField r 0 1 == 3).length
          if ¬ room then s.done c Code.CTX_NO_MEMORY
          else
          let s := s.onCtx id fun _ =>
            { fn := fn, prio := bits (f 7 1) 2 0, keepMemory := bit (f 7 1) 7, job := f 8 2, epoch := f 10 2, named := mask }
          let order := (s.ctx id).hallList
          let runs := (recs.filter fun r => leField r 0 1 != 4).map fun r =>
            ([halls.getD (leField r 1 1) 0], leField r 4 4, leField r 0 1, bit (leField r 2 1) 0, bit (leField r 2 1) 1)
          match s.takeAll id (runs ++ order.flatMap reserveRuns) [] with
          | (none, s) => (s.onCtx id fun _ => {}).done c Code.CTX_NO_MEMORY
          | (some got, s) =>
            if ¬ written then ((s.each got fun s g => s.setPot g.1 g.2 0).onCtx id fun _ => {}).hostFail c else
            let s := s.each got fun s g => s.zeroPages g.1 g.2
            let s := s.onCtx id fun x => { x with reserves := pairReserves order (got.drop runs.length) }
            let s := (s.fillAttached id bs (got.take runs.length)).setCtx id .ready
            let x := s.ctx id
            let bases := recs.foldl (fun (acc : List Nat × List (Nat × Nat)) r =>
              if leField r 0 1 = 4 then
                let h := halls.getD (leField r 1 1) 0
                (acc.1 ++ [((x.reserves.find? (·.hall == h)).map (·.save)).getD 0], acc.2)
              else (acc.1 ++ [(acc.2.head?.map (·.1)).getD 0], acc.2.drop 1)) ([], got)
            (s.emit (.hostWrite (k.at_ 32 8) (bases.1.flatMap fun p => leBytes 8 (65536 * p)))).complete c 0 id 0)

/-! ### Kernels and fences (R438, R491, R493, R585, 10 R366) -/

/-- The live ranges that an image declares: its used entries (Table 14.5, R438). -/
def imageLive (bs : List Byte) : List (Nat × Nat) :=
  ((List.range 8).map fun i => (leField bs (16 + 8 * i) 4, leField bs (20 + 8 * i) 4)).filter fun r => r.2 ≠ 0

/-- Whether live ranges keep R438. -/
def liveOk (l : List (Nat × Nat)) : Bool :=
  l.all (fun r => r.1 % 64 == 0 && r.2 % 64 == 0 && r.1 + r.2 ≤ 196608) && l.foldl (fun t r => t + r.2) 0 ≤ 180224
    && l.zipIdx.all fun a => l.zipIdx.all fun b => a.2 == b.2 || a.1.1 + a.1.2 ≤ b.1.1 || b.1.1 + b.1.2 ≤ a.1.1

/-- The offset of the replay record (R585). -/
def replayAt (halls : Nat) : Nat := alignUp (256 + 250 * halls) 64

/-- Whether an image keeps Table 14.5, and its replay record Table 17.5, for a context of `halls` halls. -/
def imageOk (bs : List Byte) (halls : Nat) : Bool :=
  let f := leField bs
  let n := f 6 1
  let progs := (List.range 16).all fun i =>
    let (o, c) := (f (128 + 8 * i) 4, f (132 + 8 * i) 4)
    if i < n then o % 4 == 0 && 1 ≤ c && c ≤ 4096 && o + 4 * c ≤ bs.length else o == 0 && c == 0
  let r := replayAt halls
  let replay := f 8 1 == 0 || (r + 64 ≤ bs.length && f r 4 == 0x50524B55 && f (r + 4) 2 == 1 && f (r + 6) 1 ≤ 1
    && f (r + 7) 1 == 0 && 1 ≤ f (r + 8) 4 && f (r + 8) 4 ≤ 65535 && zeroBytes bs (r + 12) 52)
  256 + 250 * halls ≤ bs.length && f 0 4 == 0x4E524B55 && f 4 2 == 1 && 1 ≤ n && n ≤ 16 && f 7 1 == halls && f 8 1 ≤ 1
    && zeroBytes bs 9 7 && zeroBytes bs 80 48 && progs && replay && (List.range (250 * halls)).all fun i => f (256 + i) 1 < n

/-- `SUBMIT_KERNEL`: checks a kernel image in a readable DATA range and submits it to start at a landing (R438, R447, R491,
R493, R585). -/
def execSubmitKernel (ring : RingId) (seq : W32) (s : State) : Host.Outcome State Fault Refusal :=
  .next (s.withCmd ring.toNat seq.toNat 0x20 fun c k s =>
    let x := s.ctx k.ctx
    let (a, n) := (k.at_ 16 8, k.at_ 24 4)
    let halls := x.hallList.length
    if ¬ x.state.takesWork ∨ x.submitted.isSome then s.done c Code.CTX_STATE_INVALID
    else if x.models.any fun m => m.2.evicted.isSome && (m.2.state == .active || m.2.state == .draining) then
      s.done c Code.CTX_IMAGE_EVICTED
    else if ¬ ((x.rangeAt a n).any fun r => r.kind == 1 && r.rd) then s.done c Code.KERNEL_IMAGE
    else match s.hostCheck (s.ringFn ring.toNat) a n false with
      | (some code, s) => s.done c code
      | (none, s) =>
        let bs := s.bytesAt a n
        if ¬ imageOk bs halls then s.done c Code.KERNEL_IMAGE
        else if ¬ liveOk (imageLive bs) then s.done c Code.LIVE_RANGE_INVALID
        else
          let r := replayAt halls
          let kernel : Kernel :=
            { cmd := c, image := a, bytes := n, arg := BitVec.ofNat 32 (k.at_ 28 4), target := k.at_ 32 8, serial := k.serial
              replayable := leField bs 8 1 == 1, m := if leField bs 8 1 = 1 then leField bs (r + 8) 4 else 0
              bwd := leField bs 8 1 == 1 && leField bs (r + 6) 1 == 1, live := imageLive bs }
          s.onCtx k.ctx fun x => { x with submitted := some kernel })

/-- `FENCE_COMMAND`: requests the next layout epoch at the landing of a target frame (10 R366). -/
def execFenceCommand (ring : RingId) (seq : W32) (s : State) : Host.Outcome State Fault Refusal :=
  .next (s.withCmd ring.toNat seq.toNat 0x22 fun c k s =>
    let x := s.ctx k.ctx
    let e := k.at_ 16 2
    let waits := x.reqs.any fun r => match r.kind with | .fence _ => true | _ => false
    if ¬ x.state.takesWork then s.done c Code.CTX_STATE_INVALID
    else if e ≠ (x.epoch + 1) % 65536 ∨ waits then s.done c Code.EPOCH_INVALID
    else s.onCtx k.ctx fun x =>
      { x with reqs := x.reqs ++ [{ cmd := some c, serial := k.serial, target := k.at_ 24 8, kind := .fence e }] })

end Sys2Proof.Machine
end

