-- ==== Sys2Proof/Machine/Recovery.lean ====
section
/-! DEFINITION. Recovery: the steps of the reset stair and what they take from halls and contexts, suspects and their replays,
and the rewrite of a hall's tables (17, 01 R33 to R37). -/
namespace Sys2Proof.Machine

/-! ### The end of a landing (R61, R68, R70) -/

/-- The landing closes once every hall has completed step 9: its length is kept if it is the longest, 1PPS_OUT falls if it is
high, a stop that waited takes effect, unless the next frame has begun: then it waits for that frame's landing (R61), and the
packages of the contexts that left or were exported at it are written (R461, R595). -/
def State.closeLanding (s : State) : State :=
  if s.fr.landing ≠ .halls ∨ (List.range 16).any (fun h => (s.hall h).stage ≠ .done) then s
  else
    let s := s.setReg Reg.FTK_LANDING_MAX (min (max (s.reg Reg.FTK_LANDING_MAX) (s.timeNs - s.fr.openedAt)) 0xFFFFFFFF)
    let stops := s.fr.stopPending && !s.fr.ticked
    let s : State := { s with fr := { s.fr with
      landing := .closed, ticking := s.fr.ticking && !stops, stopPending := s.fr.stopPending && !stops } }
    s.ppsLow.each s.liveCtxs fun s c => s.sendPackage c

/-- A hall whose landing steps ran past the tick is reported, and counted once for the landing (R70). -/
def State.landingOverrun (s : State) (h : Nat) : State :=
  let s := (s.raise { src := 0x1E, hall := h, code := Code.LANDING_OVERRUN }).setFld Reg.FTK_STATUS 31 16 Code.LANDING_OVERRUN
  if s.fr.overrunCounted then s
  else ({ s with fr := { s.fr with overrunCounted := true } } : State).count Reg.FTK_LANDING_OVERRUNS 1

/-- A hall has done with the landing. -/
def State.hallDone (s : State) (h : Nat) : State :=
  let s := s.onHall h fun x => { x with stage := .done }
  (if s.fr.ticked then s.landingOverrun h else s).closeLanding

/-! ### What a step takes from a hall (Table 17.2) -/

/-- The base of a hall's HAL block (Table 0.3). -/
def halBase (h : Nat) : Nat := 0x1000000 + 0x100000 * h

/-- The HBM bytes that iterations in progress of a core have still to write. -/
def Seq.unwritten (q : Seq) : List Nat :=
  (q.units.flatMap fun u => (u.cur.toList ++ u.idleCur.toList ++ u.overlap.toList).flatMap fun r => (r.writes ++ r.wide).map (·.1)).filter
    (· < mezBase)

/-- The cores of a hall in the state of a hall reset: control processors, table stores and units empty, alcoves undefined;
the sectors of writes that had not completed read as undefined (R196, R265, R566). An array unit that is not idle ramps down from
its level (R143). -/
def State.resetCores (s : State) (h : Nat) : State :=
  let s := s.each ((hallCores h).filter fun n => (s.core n).seq.ramp != .idle) fun s n => s.cutArray n
  let keys := (hallCores h).flatMap fun n => (s.core n).seq.unwritten
  let s := s.each (keys.map (· / 32)).eraseDups fun s k => s.forget (32 * k) (32 * k + 32)
  let s := s.each (hallCores h) fun s n => s.setCore n { seq := { ramp := (s.core n).seq.ramp } }
  let first := coreAt (10 * h) 0
  s.each (List.range 25) fun s r => s.forget (alcoveBase (first + 80 * r)) (alcoveBase (first + 80 * r + 10))

/-- Whether a packet comes from or goes to a core of this device that `at_` picks. -/
def State.touches (s : State) (p : Packet) (at_ : Nat → Nat → Bool) : Bool :=
  (p.sdev.toNat == s.deviceId && at_ p.src.x.toNat p.src.y.toNat) || (p.ddev.toNat == s.deviceId && at_ p.dst.x.toNat p.dst.y.toNat)

/-- The flits inside a die are discarded as its reset begins (R344). Whether a packet whose route only passes through the die is inside
it at that instant is open. -/
def State.dropFlits (s : State) (d : Nat) : State :=
  s.flight.foldl (fun t p =>
    let keep (t : State) : State := { t with flight := t.flight ++ [p] }
    if s.touches p fun x y => dieOf x y == d then t
    else if (s.flightDies p).contains d then
      if t.freeValue.toNat % 2 = 0 then t.drawn else keep t.drawn
    else keep t) { s with flight := [] }

/-- The units of a hall reset: what every step loses, and for more than a compute-only reset the mezzanine and the channels of
the region, which train again (Table 17.2, R308, R334). -/
def State.resetHallUnits (s : State) (h : Nat) (kind : ResetKind) : State :=
  let s := s.resetCores h
  let s : State :=
    { s with
      flight := s.flight.filter fun p => !s.touches p fun x y => hallOf x y == h
      mem := { s.mem with
        ownCache := mapDropRange s.mem.ownCache (1024 * h) (1024 * h + 1024), far := mapSet (0, 0) s.mem.far h (0, 0) } }
  let s := s.resetRegs (halBase h + 0x2000) (halBase h + 0x3000)
  let s := s.onHall h fun x => { x with resetAt := s.cycles, armedFrame := 0, started := 0, galleryStart := [], dirty := false }
  if kind = .compute then s
  else
    let s := s.zeroRange (mezBase + 0x300000 * (10 * h)) (mezBase + 0x300000 * (10 * h + 10))
    let s := s.each (List.range 16) fun s c =>
      let c := 16 * h + c
      (s.resetRegs (Reg.MEM_CH_CTRL c) (Reg.MEM_CH_CTRL c + 0x100)).setFld (Reg.MEM_CH_STATUS c) 2 0 1
    let s := s.settleRegion h
    { s with mem := { s.mem with tg := mapDropRange s.mem.tg (16 * h) (16 * h + 16) } }

/-! ### Contexts on halls in a step (R576, R577) -/

/-- A context loses every hall with nothing spilled and nothing kept, and its training step in progress is skipped (R576). -/
def State.dropWork (s : State) (c : Nat) : State :=
  let halls := s.heldBy c
  let s := (s.each halls fun s h => s.vacate h c).countLoss c halls
  let s := match s.lsGroupOf c with
    | some g => { s with ls := mapSet {} s.ls g { (mapGet {} s.ls g : LsGroup) with stepOvf := true } }
    | none => s
  s.onCtx c fun x => { x with saved := [], attachedLive := [] }

/-- A context's kernel in progress is submitted again with its image and argument (R577, R584). -/
def State.resubmit (s : State) (c : Nat) : State :=
  s.onCtx c fun x =>
    match x.kernel with
    | none => x
    | some k => { x with kernel := none, submitted := some { k with again := true, serial := 0, target := 0 }, queued := x.submitted }

/-- A context becomes SUSPECT (R576). -/
def State.becomeSuspect (s : State) (c : Nat) : State := (s.dropWork c).setCtx c .suspect

/-- A collateral context: it becomes READY, and its kernel is submitted again if it can be replayed, or ends with RESET_LOST
(R577). -/
def State.makeCollateral (s : State) (c : Nat) : State :=
  let s := (s.dropWork c).setCtx c .ready
  match (s.ctx c).kernel with
  | none => s
  | some k =>
    if k.replayable then s.resubmit c
    else ((s.endKernel c Code.RESET_LOST 0 0).ctxCode c Code.RESET_LOST).rstCode Code.RESET_LOST

/-- An export of a context that names a covered hall is overtaken (R596). -/
def State.abortExports (s : State) (halls : List Nat) : State :=
  s.each s.liveCtxs fun s c =>
    match (s.ctx c).pkg with
    | some p =>
      if p.isExport ∧ halls.any (fun h => bit (s.ctx c).named h) then
        ((s.onCtx c fun x => { x with pkg := none }).done p.cmd Code.EXPORT_ABORTED).rstCode Code.EXPORT_ABORTED
      else s
    | none => s

/-! ### Steps (R565 to R573) -/

/-- The halls that a step covers. -/
def coveredHalls (kind : ResetKind) (target : Nat) : List Nat :=
  match kind with
  | .die => (List.range 4).map (4 * target + ·)
  | .device | .power => List.range 16
  | _ => [target]

/-- The counter of a kind of step. -/
def stepCounter (kind : ResetKind) : Nat :=
  match kind with
  | .compute => Reg.RST_CNT_COMPUTE | .hall => Reg.RST_CNT_HALL | .die => Reg.RST_CNT_DIE | _ => Reg.RST_CNT_DEVICE

/-- A compute-only, hall or die step begins. Smaller steps that it covers are abandoned and their suspects carry over (R572);
contexts that hold a covered hall become collateral; the dump is written; then the units are reset. The landing goes on without
the halls, past the tick or not (R70). -/
def State.startStep (s : State) (kind : ResetKind) (target : Nat) (cause : Cause) : State :=
  let halls := coveredHalls kind target
  let s := s.each halls fun s h => match (s.hall h).step with
    | some st => s.stepEnded st h 2
    | none => s
  let s := s.each halls fun s h => s.onHall h fun x =>
    { x with
      step := none, replay := none, late := false, startKernel := false
      suspects := (x.replay.map (·.ctx)).toList ++ x.suspects }
  let replayed := halls.flatMap fun h => (s.hall h).suspects
  let holders := (s.liveCtxs.filter fun c => (s.heldBy c).any halls.contains)
  let s := s.each holders fun s c => if (s.ctx c).state = .suspect then s.dropWork c else s
  let collateral := holders.filter fun c => (s.ctx c).state ≠ .suspect
  let s := s.writeDump kind target cause (s.liveCtxs.filter fun c => collateral.contains c || replayed.contains c)
  let s := s.each collateral fun s c => s.makeCollateral c
  let s := s.abortExports halls
  let s := s.count (stepCounter kind) 1
  let s := s.each halls fun s h => s.resetHallUnits h kind
  let st : Step := { kind := kind, began := s.monoNs, frame := s.frame, cause := cause }
  let s : State :=
    if kind = .die then
      { s.dropFlits target with dies := mapSet none s.dies target (some st) }
    else s.onHall target fun x => { x with step := some st }
  (s.each halls fun s h => if (s.hall h).stage = .done then s else s.hallDone h).closeLanding

/-! ### Suspects and replays (R575 to R584) -/

/-- The suspects of a recovery, the one that held the hall last first (R575, R579). -/
def State.suspectsOf (s : State) (h : Nat) (c : Cause) : List Nat :=
  let held := (s.hall h).history.filter fun e => c.first ≤ e.1 + s.fld Reg.RST_CTRL 3 0 && e.1 ≤ c.frame
  (held.map (·.2)).eraseDups.filter fun i => (s.ctx i).state ∉ [CtxState.free, .faulted, .detached]

/-- The first step of a recovery of a hall: compute-only where the context that held the hall in the frame of the event holds
KEEP_MEMORY and the cause is not a check of a gallery data mover (R569). -/
def State.firstKind (s : State) (h : Nat) (c : Cause) : ResetKind :=
  match (s.hall h).history.find? fun e => e.1 == c.frame with
  | some (_, i) => if (s.ctx i).keepMemory ∧ c.src ≠ 0x28 then .compute else .hall
  | none => .hall

/-- Recovery of a hall begins (R569, R571, R575, R576). `asked` is an RST_REQ that acts at the same step 8. -/
def State.recover (s : State) (h : Nat) (c : Cause) (asked : Option ResetKind) : State :=
  let list := s.suspectsOf h c
  let first := s.firstKind h c
  let s := s.each list fun s i => s.becomeSuspect i
  let times := ((s.hall h).recTimes.filter fun t => s.monoNs - t < 600000000000) ++ [s.monoNs]
  let s := s.onHall h fun x =>
    { x with
      suspects := x.suspects ++ list.filter (fun i => !x.suspects.contains i), recTimes := times, why := (c.src, c.code)
      due := none, request := none }
  if 4 ≤ times.length then s.startStep .die (h / 4) c
  else s.startStep (if asked = some .hall then .hall else first) h c

/-- A suspect that passed or was cleared becomes READY again with its kernel submitted again (R584). -/
def State.releaseSuspect (s : State) (c : Nat) : State :=
  let s := s.each (List.range 16) fun s h => s.onHall h fun x => { x with resolved := x.resolved.filter (· ≠ c) }
  if (s.ctx c).state ≠ .suspect then s
  else (((s.resubmit c).setCtx c .ready).ctxCode c Code.REPLAY_PASSED).rstCode Code.REPLAY_PASSED

/-- Whether a context is still to be resolved on some hall. -/
def State.unresolved (s : State) (c : Nat) : Bool :=
  (List.range 16).any fun h => (s.hall h).suspects.contains c || ((s.hall h).replay.map (·.ctx)) == some c

/-- The suspects of a hall that has resolved them all are released, but for those that another hall still lists (R584). -/
def State.settleSuspects (s : State) (h : Nat) : State :=
  let x := s.hall h
  if s.inStep h ∨ x.suspects ≠ [] ∨ x.replay.isSome then s
  else s.each (x.resolved.filter fun c => !s.unresolved c) fun s c => s.releaseSuspect c

/-- The suspects of a hall taken one at a time until one is to be replayed (R579). A hall that its step has left out of service takes
no context (R35), so that a suspect is cleared without a replay there (DEDUCED, log entry 108). -/
def State.nextReplay (s : State) (h : Nat) : List Nat → State
  | [] => (s.onHall h fun x => { x with suspects := [] }).settleSuspects h
  | c :: rest =>
    let why := (s.hall h).why
    if (s.ctx c).state ≠ .suspect then s.nextReplay h rest
    else match (s.ctx c).kernel with
      | none => (s.onHall h fun x => { x with resolved := x.resolved ++ [c] }).nextReplay h rest
      | some k =>
        if k.replayable ∧ ¬ s.online h then (s.onHall h fun x => { x with resolved := x.resolved ++ [c] }).nextReplay h rest
        else if k.replayable then
          (s.onHall h fun x =>
            { x with suspects := rest, holder := some c, replay := some { ctx := c, startFrame := s.fr.frame + 1 } }).count
              Reg.RST_CNT_REPLAY 1
        else ((s.faultCtx c Code.REPLAY_NOT_DECLARED why.1 why.2).rstCode Code.REPLAY_NOT_DECLARED).nextReplay h rest

/-- A replay has failed: its context becomes FAULTED, the suspects not yet replayed are cleared, and recovery begins again with
no suspects (R583). -/
def State.failReplay (s : State) (h c src code : Nat) : State :=
  let cause : Cause := { src := src, code := code, frame := s.frame, first := s.frame }
  let first := s.firstKind h cause
  let s := (s.count Reg.RST_CNT_REPLAY_FAIL 1).rstCode Code.REPLAY_FAILED
  let s := s.onHall h fun x =>
    { x with replay := none, suspects := [], resolved := x.resolved ++ x.suspects, due := none, request := none }
  (s.faultCtx c Code.REPLAY_FAILED src code).startStep first h cause

/-- The replay of a hall's suspect passes (R582). -/
def State.passReplay (s : State) (h : Nat) : State :=
  match (s.hall h).replay with
  | none => s
  | some r => (s.vacate h r.ctx).onHall h fun x => { x with replay := none, resolved := x.resolved ++ [r.ctx] }

/-- The built-in interleaved schedule (R394, R395): the unit of index `i` of hall `p` of `t` halls, with M micro-batches, as a backward
flag, a virtual stage and a micro-batch; a run with no backward units runs the forward ones in order. -/
def scheduleUnit (t p m : Nat) (bwd : Bool) (i : Nat) : Option (Bool × Nat × Nat) :=
  let nf := 4 * m
  let warm := min nf (2 * (t - p - 1) + 3 * t)
  let fwd (k : Nat) : Option (Bool × Nat × Nat) := some (false, k % (4 * t) / t, k / (4 * t) * t + k % t)
  let back (k : Nat) : Option (Bool × Nat × Nat) := some (true, 3 - k % (4 * t) / t, k / (4 * t) * t + k % t)
  if ¬ bwd then (if i < nf then fwd i else none)
  else if i < warm then fwd i
  else if i < warm + 2 * (nf - warm) then
    (if (i - warm) % 2 = 0 then fwd (warm + (i - warm) / 2) else back ((i - warm) / 2))
  else if i < 2 * nf then back (i - nf)
  else none

/-- The units of a replay: P = 1 (R580). -/
def replayUnit (m : Nat) (bwd : Bool) (i : Nat) : Option (Bool × Nat × Nat) := scheduleUnit 1 0 m bwd i

/-- The unit word of Table 17.4. -/
def unitWord (u : Bool × Nat × Nat) : Nat := 2 ^ 31 + 2 ^ 30 * b2n u.1 + 2 ^ 28 * u.2.1 + u.2.2 % 65536

/-- Step 8 on a hall: a failed replay, a recovery or an RST_REQ that is due, or the next replay (R67, R568, R579 to R583). A
hall that a step covers waits. -/
def State.step8 (s : State) (h : Nat) : State :=
  let x := s.hall h
  if s.inStep h then s
  else match x.replay, x.replay.bind (·.failed) with
    | some r, some f => s.failReplay h r.ctx f.1 f.2
    | _, _ =>
      let asked := (x.request.filter fun r => r.2 < s.fr.snap).map (·.1)
      match x.due.filter fun d => d.2 < s.fr.snap with
      | some d => s.recover h d.1 asked
      | none => match asked with
        | some k =>
          (s.onHall h fun x => { x with request := none }).startStep k h { src := 0x7F, frame := s.frame, first := s.frame }
        | none => if x.replay.isSome then s else s.nextReplay h x.suspects

/-! ### The rewrite of a hall's tables (R34, R588, R589, R692) -/

/-- Whether step 8 of the landing in progress will start a step on a hall (R574). -/
def State.recoveryDue (s : State) (h : Nat) : Bool :=
  let x := s.hall h
  x.due.any (fun d => d.2 < s.fr.snap) || x.request.any (fun r => r.2 < s.fr.snap) || x.replay.any (·.failed.isSome)

/-- The state of a slot after its self-test: marked slots retire, slots that fail become UNUSABLE, RETIRED slots that pass
become SPARE (R36, R588). -/
def testedState (state : Nat) (marked failed : Bool) : Nat :=
  if state = 3 then 3
  else if marked ∧ state ≤ 1 then 2
  else if failed then 3
  else if state = 2 then 1
  else state

/-- The replacements of a gallery index: each position whose slot left IN_SERVICE gets the lowest SPARE slot, or none does if
they are too few. The spares switched in, and whether the gallery is deficient (R34, R589). -/
def Hall.replace (x : Hall) (j : Nat) : Hall × Nat × Bool :=
  let lost := (List.range 25).filter fun p => x.slotState j (x.slotOf j p) ≠ 0
  let spares := x.slotsIn j 1
  if spares.length < lost.length then (x, 0, true)
  else ((lost.zip spares).foldl (fun x e => (x.setSlot j e.2 0).setSlotOf j e.1 e.2) x, lost.length, false)

/-- The tables of a hall settled, from those of `base`, which are the restored ones (R37): each slot gets the state that `f` gives for its
number, 27 times the gallery index plus the slot, and its present state; positions get spares. The hall is in service when every
gallery has 25 slots. -/
def State.settleWith (s : State) (base : Hall) (h : Nat) (f : Nat → Nat → Nat) : State :=
  let old := s.hall h
  let keys := List.range 270
  let tested := keys.foldl (fun (x : Hall) k => x.setSlot (k / 27) (k % 27) (f k (x.slotState (k / 27) (k % 27)))) base
  let tested := { tested with marks := tested.marks.filter fun k => tested.slotState (k / 27) (k % 27) ≤ 1 }
  let (new, spares, bad) := (List.range 10).foldl (fun (acc : Hall × Nat × List Nat) j =>
    let (x, n, d) := acc.1.replace j
    (x, acc.2.1 + n, if d then acc.2.2 ++ [j] else acc.2.2)) (tested, 0, [])
  let changed := new.slots ≠ old.slots ∨ new.remap ≠ old.remap
  let s := s.onHall h fun x => { x with slots := new.slots, remap := new.remap, marks := new.marks }
  let broke := keys.filter fun k => new.slotState (k / 27) (k % 27) = 3 ∧ old.slotState (k / 27) (k % 27) ≠ 3
  let s := s.each broke fun s k =>
    s.raise { src := 0x24, hall := h, inst := k % 27, x := xOf (10 * h + k / 27) 0, y := yOf (10 * h + k / 27) 0 }
  let s := s.each bad fun s j => s.raise { src := 0x25, hall := h, inst := j }
  let s := if spares = 0 then s else (s.count Reg.RST_CNT_SPARES spares).rstCode Code.SPARE_SWITCHED
  let s := if changed then
      (s.setReg (Reg.HAL_REMAP_GEN h) ((s.reg (Reg.HAL_REMAP_GEN h) + 2) % 2 ^ 32)) else s
  let full := (List.range 10).all fun j => 25 ≤ (new.slotsIn j 0).length
  let s := s.setFld Reg.DEV_HALL_ONLINE h h (b2n full)
  if full then s else s.noteOffline (s.liveCtxs.filter fun c => bit (s.ctx c).named h)

/-- The tables of halls settled after the self-tests of a step, of which `failed` lists the slots that failed on a hall (R588, R692). -/
def State.settleTables (s : State) (halls : List Nat) (failed : Nat → List Nat) : State :=
  s.each halls fun t h => t.settleWith (s.restoredHall h) h fun k st =>
    testedState st ((s.hall h).marks.contains k) ((failed h).contains k)

/-- The live write that follows a change of the tables or marks of halls, which were `old`'s (R37, R692). -/
def State.writeBack (s old : State) (halls : List Nat) : State :=
  if halls.any fun h => (s.hall h).slots ≠ (old.hall h).slots ∨ (s.hall h).remap ≠ (old.hall h).remap
      ∨ (s.hall h).marks ≠ (old.hall h).marks then s.liveChange
  else s

end Sys2Proof.Machine
end

