-- ==== Sys2Proof/Machine/Rsa.lean ====
section
/-! DEFINITION. RSA-3072 signatures and the identity key (18 R600, R609): RSASSA-PSS of RFC 8017 with SHA-256, MGF1 with SHA-256, a
32-byte salt and the exponent 65,537, and the key that a seed gives. -/
namespace Sys2Proof.Machine

/-- `b` to the power of the low `n` bits of `e`, modulo `m`. -/
def powMod : Nat → Nat → Nat → Nat → Nat
  | 0, _, _, m => 1 % m
  | n + 1, b, e, m =>
    let h := powMod n (b * b % m) (e / 2) m
    if e % 2 = 1 then b * h % m else h

/-- The public exponent (R600). -/
def publicExp : Nat := 65537

/-- MGF1 with SHA-256: `n` bytes of a mask. -/
def mgf1 (seed : List Byte) (n : Nat) : List Byte :=
  ((List.range (ceilDiv n 32)).flatMap fun i => sha256 (seed ++ beBytes 4 i)).take n

/-- The encoded message of EMSA-PSS for 3,071 bits: the masked salt, its hash, and the trailer 0xBC. -/
def pssEncode (msg salt : List Byte) : List Byte :=
  let h := sha256 (List.replicate 8 0 ++ sha256 msg ++ salt)
  let masked := xorBytes (List.replicate 318 0 ++ 0x01 :: salt) (mgf1 h 351)
  beBytes 351 (beNat masked % 2 ^ 2807) ++ h ++ [0xBC]

/-- Whether a signature over a message verifies under a modulus: the encoded message that it opens to is that of the message with the
salt that it holds (R600). -/
def pssVerify (modulus : Nat) (msg sig : List Byte) : Bool :=
  let s := beNat sig
  let em := beBytes 384 (powMod 17 s publicExp modulus)
  let h := (em.drop 351).take 32
  let salt := (xorBytes (em.take 351) (mgf1 h 351)).drop 319
  decide (2 ^ 3071 ≤ modulus ∧ s < modulus) && em == pssEncode msg salt

/-- The signature of a key over a message with a salt, 384 bytes big-endian (R600). -/
def RsaKey.sign (k : RsaKey) (msg salt : List Byte) : List Byte :=
  beBytes 384 (powMod 3072 (beNat (pssEncode msg salt)) k.secret k.modulus)

/-- The key and the value of HMAC_DRBG with SHA-256 after it has been instantiated with a seed and nothing else (R609; log entry 119). -/
def drbgStart (seed : List Byte) : List Byte × List Byte :=
  let turn (kv : List Byte × List Byte) (b : Byte) : List Byte × List Byte :=
    let k := hmac kv.1 (kv.2 ++ b :: seed)
    (k, hmac k kv.2)
  turn (turn (List.replicate 32 0, List.replicate 32 1) 0) 1

/-- The private exponent for two primes: the inverse of the public one modulo the least common multiple of `p` - 1 and `q` - 1, found
from the inverse of that multiple modulo the public exponent, a prime. -/
def privateExp (p q : Nat) : Nat :=
  let m := Nat.lcm (p - 1) (q - 1)
  (1 + m * ((publicExp - powMod 17 (m % publicExp) (publicExp - 2) publicExp) % publicExp)) / publicExp

/-- The identity key that a seed gives: the same seed always gives the same key (R609). -/
def identityKey (seed : List Byte) : RsaKey :=
  let (k, v) := drbgStart seed
  let (p, q) := Config.primes k v
  { modulus := p * q, secret := privateExp p q }

end Sys2Proof.Machine
end

