-- ==== Sys2Proof/Machine/Identity.lean ====
section
/-! DEFINITION. Identity, the live record and the security mailbox (18 R605 to R617). -/
namespace Sys2Proof.Machine

/-! ### The live record (R606, R607, R611) -/

/-- The tables and the plan taken from a live copy; the delivery ones from an empty copy (R30, R605, R606). -/
def State.takeTables (s : State) (c : LiveCopy) : State :=
  let s := s.each (List.range 16) fun s h =>
    let l : LiveHall := mapGet {} c.halls h
    (s.onHall h fun x => { x with slots := l.slots, remap := l.remap, marks := l.marks }).setFld (Reg.PWR_VCORE_PLAN h) 31 16
      (mapGet 0 c.targets h)
  { s with power := { s.power with vreqs := c.vreqs } }

/-- A live copy in use: LIVE_VERIFIED and its GEN are shown (Table 18.9). -/
def State.useCopy (s : State) (c : LiveCopy) : State :=
  let s := (s.setFld Reg.SEC_STATUS 7 7 1).setReg Reg.SEC_LIVE_GEN c.gen
  { s with sec := { s.sec with inUse := some c } }

/-- The selection of the live record (R606). -/
def State.selectLive (s : State) : State :=
  match (if s.identity = 1 then s.sec.newest else none) with
  | some c => (s.takeTables c).useCopy c
  | none => ((s.takeTables {}).secCode Code.CFG_LIVE_UNVERIFIED).liveChange

/-- How the derivation from a seed ends: 0, or the code of its refusal: the seed fails its check, or the derived key is not that of the
device certificate (R608, R610). -/
def identityCode (seed : List Byte) : Nat :=
  if sha256 seed ≠ beBytes 32 Config.seedCheck.toNat then Code.PUF_RECONSTRUCT_FAIL
  else if (identityKey seed).modulus ≠ Config.certificateModulus (Config.certificate 0) then Code.CERT_KEY_MISMATCH
  else 0

/-- `IDENTITY_DERIVATION_END`: the PUF has given a seed; the derivation ends with READY and the key held, or is refused and ends with
FAILED; then the live record is selected (R606, R608 to R611). -/
def execIdentityDerivationEnd (seed : BitVec 256) (s : State) : Host.Outcome State Fault Refusal :=
  let bytes := beBytes 32 seed.toNat
  let code := identityCode bytes
  let phase := s.fld Reg.DEV_BRINGUP 31 28
  .next <|
    if s.identity ≠ 0 ∨ (phase ≠ 2 ∧ phase ≠ 3) then s
    else if code = 0 then
      (({ s with sec := { s.sec with key := some (identityKey bytes) } } : State).setFld Reg.SEC_STATUS 9 8 1).selectLive
    else (((s.setFld Reg.SEC_STATUS 9 8 2).secCode code).raise { src := 0x56, code := code }).selectLive

/-- `LIVE_RECORD_WRITE_END`: the write of a live copy ends; the copy is in use from then on, and a plan that it carries is
PERSISTED; a failed write is reported. A change that came during the write is written next (R607, R638). -/
def execLiveRecordWriteEnd (ok : Bool) (s : State) : Host.Outcome State Fault Refusal :=
  .next <|
    match s.sec.writing with
    | none => s
    | some (k, c) =>
      let more := s.sec.changed
      let s : State := { s with sec := { s.sec with writing := none } }
      let s := if ok then
          let s : State := ({ s with sec := s.sec.setCopy k c } : State).useCopy c
          if more then s else s.setFld Reg.PWR_MARGIN_STATUS 15 15 1
        else
          let s := s.raise { src := 0x5C }
          let hit (m : SecCmd) : SecCmd :=
            if !more && (m.op == 3 || m.op == 4) && m.code == 0 then { m with code := Code.SEC_FLASH_FAIL } else m
          { s with sec := { s.sec with cmd := s.sec.cmd.map hit } }
      if more then s.startLiveWrite else s

/-! ### The flash -/

/-- A byte of the module flash. -/
def State.flashByte (s : State) (a : Nat) : Byte :=
  match mapGet [] s.sec.flash (a / 4096) with
  | [] => Config.flashByte a
  | l => l.getD (a % 4096) 0

/-- Bytes of the module flash. -/
def State.flashBytes (s : State) (a n : Nat) : List Byte := (List.range n).map fun i => s.flashByte (a + i)

/-- The offset of an image slot of a bank (Table 18.1), its VERSION and its header bytes 0 to 511 (Table 18.2, R602). -/
def imageOff (bank slot : Nat) : Nat := 0x1000000 + 0x2000000 * bank + 0x800000 * slot
def State.imageVersion (s : State) (bank slot : Nat) : Nat := leNat (s.flashBytes (imageOff bank slot + 8) 4)
def State.measurement (s : State) (bank slot : Nat) : List Byte := sha256 (s.flashBytes (imageOff bank slot) 512)

/-- Whether the bytes of a list are all 0. -/
def allZero (bs : List Byte) : Bool := bs.all (· == 0)

/-- Whether bytes 64 to 451 are a modulus and an exponent of the root key: their SHA-256 is that in the mask ROM (R601). -/
def rootKey (bs : List Byte) : Bool := sha256 bs == beBytes 32 Config.rootKeyHash.toNat

/-- How the image of a slot of a bank verifies: 0, or the code of the first check that fails (R601). -/
def State.imageCode (s : State) (bank slot : Nat) : Nat :=
  let a := imageOff bank slot
  let h := s.flashBytes a 896
  let f := leField h
  let n := f 12 4
  if f 0 4 ≠ 0x474D4953 ∨ f 4 2 ≠ 1 ∨ f 6 1 ≠ slot + 1 ∨ f 7 1 ≠ 0 ∨ 0x800000 - 896 < n
      ∨ ¬ allZero ((h.drop 24).take 8) ∨ ¬ allZero ((h.drop 452).take 60) then Code.IMAGE_FORMAT
  else if ¬ rootKey ((h.drop 64).take 388) then Code.ROOT_KEY_MISMATCH
  else if ¬ pssVerify (beNat ((h.drop 64).take 384)) (h.take 512) (h.drop 512)
      ∨ sha256 (s.flashBytes (a + 896) n) ≠ (h.drop 32).take 32 then Code.IMAGE_SIG_FAIL
  else 0

/-- The factory part: its LENGTH, the bytes up to its signature, and the serial in its header (Table 18.3). -/
def State.factoryLength (s : State) : Nat := leNat (s.flashBytes 12 4)
def State.factoryPart (s : State) : List Byte := s.flashBytes 0 s.factoryLength
def State.factorySerial (s : State) : Nat := leNat (s.flashBytes 16 8)

/-- Whether the factory part verifies: its header, and its signature by the root key, whose modulus and exponent stand before the
signature as in an image header, 448 bytes before it (R605, Tables 18.2 and 18.3; log entry 119). -/
def State.factoryOk (s : State) : Bool :=
  let n := s.factoryLength
  let bs := s.factoryPart
  let f := leField bs
  let key := (bs.drop (n - 448)).take 388
  decide (512 ≤ n ∧ n + 384 ≤ 0x100000 ∧ f 0 4 = 0x47464352 ∧ f 4 2 = 1 ∧ f 6 1 = 0 ∧ f 7 1 = 0 ∧ f 8 4 = 0)
    && allZero ((bs.drop 24).take 40) && rootKey key && pssVerify (beNat (key.take 384)) bs (s.flashBytes n 384)

/-- The bank of the running SUPERVISOR image. -/
def State.bank (s : State) : Nat := s.fld Reg.SEC_STATUS 6 6

/-- The VERSION of image slots 0 to 3 as Table 18.5 gives them. -/
def State.versions (s : State) : List Byte := (List.range 4).flatMap fun k => leBytes 4 (s.imageVersion s.bank k)

/-! ### Attestation (Table 18.5, R616) -/

/-- The spare map (R616). -/
def State.spareMap (s : State) : List Byte :=
  (List.range 160).flatMap fun g =>
    let x := s.hall (g / 10)
    let j := g % 10
    ((List.range 25).map fun p => BitVec.ofNat 8 (x.slotOf j p)) ++ (List.range 27).map fun t => BitVec.ofNat 8 (x.slotState j t)

/-- What a live copy holds, for its digest. -/
def LiveCopy.content (c : LiveCopy) : List Nat :=
  let pairs (m : SMap Nat) : List Nat := m.length :: m.flatMap fun e => [e.1, e.2]
  c.gen :: (pairs c.targets ++ pairs c.vreqs
    ++ c.halls.flatMap fun e => e.1 :: (pairs e.2.slots ++ pairs e.2.remap ++ e.2.marks.length :: e.2.marks))

/-- The attestation report of a command, signed by the identity key with a salt that is open (R600). -/
def State.report (s : State) (c : SecCmd) : List Byte :=
  let live := bit (s.reg Reg.SEC_STATUS) 7
  let flags := b2n s.locked + 2 * b2n (s.clk.disc ≠ .unset) + 4 * b2n live + 8 * s.bank
  let features := if s.locked then leBytes 8 (s.reg Reg.DEV_FEATURE_ACCEPT0) ++ leBytes 8 (s.reg Reg.DEV_FEATURE_ACCEPT1)
    else List.replicate 16 0
  let mLive := match s.sec.inUse with
    | some k => if live then beBytes 32 (Config.liveDigest k.content).toNat else List.replicate 32 0
    | none => List.replicate 32 0
  let body := leBytes 4 0x54535441 ++ leBytes 2 1 ++ leBytes 2 768 ++ leBytes 4 flags ++ leBytes 4 0
    ++ leBytes 8 (s.reg Reg.SEC_SERIAL) ++ leBytes 8 (c.frame % 2 ^ 48) ++ c.window.take 32 ++ features ++ s.versions
    ++ ((List.range 4).flatMap fun k => s.measurement s.bank k) ++ sha256 s.factoryPart ++ mLive ++ c.sampled
    ++ sha256 features ++ List.replicate 32 0
  body ++ (s.sec.key.getD {}).sign body ((List.range 32).map fun i => Config.openByte s.free i)

/-! ### The mailbox (R612 to R615) -/

/-- The bytes of the window. -/
def State.window (s : State) : List Byte := (List.range 512).flatMap fun i => leBytes 8 (s.reg (Reg.SEC_MB_WINDOW i))

/-- The window filled with the output of a command, from its first byte on. -/
def State.fillWindow (s : State) (bs : List Byte) : State :=
  s.each (List.range (ceilDiv bs.length 8)) fun s i => s.setReg (Reg.SEC_MB_WINDOW i) (leField bs (8 * i) 8)

/-- Whether boot has stopped (R604). -/
def State.bootFailed (s : State) : Bool := s.fld Reg.SEC_STATUS 2 0 == 3

/-- The code that FLASH_WRITE at an offset completes with at once (R604, R615). -/
def State.flashCode (s : State) (a : Nat) : Nat :=
  let inBank (b : Nat) : Bool := decide (imageOff b 0 ≤ a ∧ a < imageOff b 0 + 0x2000000)
  if a % 4096 ≠ 0 then Code.SEC_CMD_INVALID
  else if s.bootFailed then (if inBank 0 || inBank 1 then 0 else Code.SEC_CMD_INVALID)
  else if inBank (1 - s.bank) then 0 else Code.SEC_BANK_ACTIVE

/-- The slot that an argument names: its hall and 27 times the gallery index plus the slot, if there is one (Table 18.4). -/
def slotArg (a : Nat) : Option (Nat × Nat) :=
  if 9 < bits a 11 8 ∨ 26 < bits a 20 16 then none else some (bits a 3 0, 27 * bits a 11 8 + bits a 20 16)

/-- What a command does when it starts, and the code that it will complete with: a mark or a state that changes the live part
changes now (R613, R614). -/
def State.startMb (s : State) (op a : Nat) : State × Nat :=
  if s.bootFailed ∧ op ≠ 5 then (s, Code.SEC_CMD_INVALID)
  else match op with
    | 1 => (s, if 1 < a then Code.SEC_CMD_INVALID else 0)
    | 2 => (s, 0)
    | 3 | 4 =>
      if s.identity ≠ 1 then (s, Code.SEC_NO_IDENTITY)
      else match slotArg a with
        | none => (s, Code.SEC_CMD_INVALID)
        | some (h, k) =>
          let st := (s.hall h).slotState (k / 27) (k % 27)
          if op = 3 then (if st ≤ 1 then (s.markSlot h k, 0) else (s, Code.SEC_CMD_INVALID))
          else if st = 3 then
            let s := s.setReg (Reg.HAL_REMAP_GEN h) ((s.reg (Reg.HAL_REMAP_GEN h) + 2) % 2 ^ 32)
            ((s.onHall h fun x => x.setSlot (k / 27) (k % 27) 2).liveChange, 0)
          else (s, Code.SEC_CMD_INVALID)
    | 5 => (s, s.flashCode a)
    | _ => (s, Code.SEC_CMD_INVALID)

/-- A write of SEC_MB_CMD: ignored with SEC_BUSY while a command is in progress; otherwise the command starts (R612). -/
def State.writeMbCmd (s : State) (op : Nat) : State :=
  if ¬ s.power.good then s
  else if s.sec.cmd.isSome then s.secCode Code.SEC_BUSY
  else
    let a := s.reg Reg.SEC_MB_ARG0
    let c : SecCmd :=
      { op := op, arg0 := a, window := s.window, frame := s.frame, sampled := if op = 2 then sha256 s.spareMap else [] }
    let (s, code) := s.startMb op a
    let s := (s.setFld Reg.SEC_MB_STATUS 31 31 1).setFld Reg.SEC_MB_STATUS 30 30 0
    { s with sec := { s.sec with cmd := some { c with code := code } } }

/-- `GET_CERT`: the write of opcode 0x01: asks for a certificate. -/
def execGetCert (s : State) : Host.Outcome State Fault Refusal := .next (s.writeMbCmd 1)

/-- `ATTEST`: the write of opcode 0x02: asks for an attestation report over the nonce in the window. -/
def execAttest (s : State) : Host.Outcome State Fault Refusal := .next (s.writeMbCmd 2)

/-- `MARK_RETIRE`: the write of opcode 0x03: marks a slot that serves or is spare for retirement (R614). -/
def execMarkRetire (s : State) : Host.Outcome State Fault Refusal := .next (s.writeMbCmd 3)

/-- `SLOT_RETEST`: the write of opcode 0x04: makes an UNUSABLE slot RETIRED, so that its next step tests it (R614). -/
def execSlotRetest (s : State) : Host.Outcome State Fault Refusal := .next (s.writeMbCmd 4)

/-- `FLASH_WRITE`: the write of opcode 0x05: writes the window to the bank that is not running (R615). -/
def execFlashWrite (s : State) : Host.Outcome State Fault Refusal := .next (s.writeMbCmd 5)

/-- A command ends: the window, LENGTH and CODE, then DONE (R612). -/
def State.endMb (s : State) (code : Nat) (out : List Byte) : State :=
  let s := (s.fillWindow out).setReg Reg.SEC_MB_STATUS (2 ^ 30 + 65536 * out.length + code)
  let s := if code = 0 then s else s.secCode code
  { s with sec := { s.sec with cmd := none } }

/-- `MAILBOX_DONE`: the command in progress ends, unless it waits: for identity, or for its live write (R612 to R614). `ok` says
whether a flash write succeeded. -/
def execMailboxDone (ok : Bool) (s : State) : Host.Outcome State Fault Refusal :=
  .next <|
    match s.sec.cmd with
    | none => s
    | some c =>
      if c.code ≠ 0 then s.endMb c.code []
      else match c.op with
        | 1 =>
          if c.arg0 = 0 ∧ s.identity = 0 then s
          else if c.arg0 = 0 ∧ s.identity = 2 then s.endMb Code.SEC_NO_IDENTITY []
          else s.endMb 0 ((Config.certificate c.arg0).take 4096)
        | 2 =>
          if s.identity = 0 then s
          else if s.identity = 2 then s.endMb Code.SEC_NO_IDENTITY []
          else s.drawn.endMb 0 (s.report c)
        | 5 =>
          if ok then ({ s with sec := { s.sec with flash := mapSet [] s.sec.flash (c.arg0 / 4096) c.window } } : State).endMb 0 []
          else s.endMb Code.SEC_FLASH_FAIL []
        | _ => if s.sec.writing.isSome then s else s.endMb 0 []

end Sys2Proof.Machine
end

