-- ==== Sys2Proof/Machine/PowerOps.lean ====
section
/-! DEFINITION. What landings do to power: the class that takes effect, the VCORE setpoints that move, and the recomputation of
the margin plan (19 R626, R631 to R636). -/
namespace Sys2Proof.Machine

/-- The DUTY of a power class (Table 19.2). -/
def classDuty (c : Nat) : Nat := 64 - 16 * c

/-- A power class takes effect (R626); while the brake rules, its duty waits (R627). -/
def State.applyClass (s : State) (c : Nat) : State :=
  let s := s.setFld Reg.PWR_STATUS 2 0 c
  let s := if s.power.brake ∨ s.power.braking then s else s.setFld Reg.PWR_STATUS 14 8 (classDuty c)
  if classDuty c < 64 then s.raise { src := 0x50 } else s

/-- Step 9: the class whose request came last before the snapshot takes effect (R626). -/
def State.classDue (s : State) : State :=
  let due := s.power.classReqs.filter fun r => r.1 < s.fr.snap
  match due.getLast? with
  | some r =>
    ({ s with power := { s.power with classReqs := s.power.classReqs.filter fun r => s.fr.snap ≤ r.1 } } : State).applyClass r.2
  | none => s

/-! ### VCORE (R634) -/

/-- The setpoint of a hall's VCORE rail in units of 0.25 mV; 0.720 V until the plan moves it (Table 19.1). -/
def State.setpoint (s : State) (h : Nat) : Nat := mapGet 2880 s.power.setpoints h
def State.setSetpoint (s : State) (h v : Nat) : State :=
  { s with power := { s.power with setpoints := mapSet 2880 s.power.setpoints h v } }

/-- The target of a hall, 0 before the first plan. -/
def State.target (s : State) (h : Nat) : Nat := s.fld (Reg.PWR_VCORE_PLAN h) 31 16

/-- Each setpoint moves towards its target by at most 2.5 mV; a hall in a step keeps its own (R634). -/
def State.moveSetpoints (s : State) : State :=
  s.each (List.range 16) fun s h =>
    let (v, t) := (s.setpoint h, s.target h)
    if s.inStep h ∨ t = 0 then s
    else if v < t then s.setSetpoint h (min t (v + 10))
    else s.setSetpoint h (max t (v - 10))

/-! ### The margin plan (R631 to R633) -/

/-- What the monitors last read of a slot: its slack in ps, two's complement, and the voltage at which the slack equals
GUARD_PS. A slot is named by 27 times its gallery plus its number. -/
def State.slackOf (s : State) (k : Nat) : Int := sext 16 (mapGet 0 s.power.slacks k)
def State.vreqOf (s : State) (k : Nat) : Nat := mapGet 0 s.power.vreqs k

/-- The slot with the least slack of a list, the first of several. -/
def State.worstSlot (s : State) : List Nat → Option Nat
  | [] => none
  | k :: l => match s.worstSlot l with
    | some b => some (if s.slackOf b < s.slackOf k then b else k)
    | none => some k

/-- The slots of a hall in a state, as 27 times the gallery plus the slot. -/
def State.slotsOf (s : State) (h st : Nat) : List Nat :=
  (List.range 10).flatMap fun j => ((s.hall h).slotsIn j st).map fun t => 27 * (10 * h + j) + t

/-- The worst slacks of a hall and its galleries shown (Table 19.6). -/
def State.showSlacks (s : State) (h : Nat) : State :=
  let serving := s.slotsOf h 0
  let s := match s.worstSlot serving with
    | some k => s.setFld (Reg.PWR_VCORE_PLAN h) 15 0 (wrapTo 16 (s.slackOf k))
    | none => s
  s.each (List.range 10) fun s j =>
    let g := 10 * h + j
    match s.worstSlot ((serving ++ s.slotsOf h 1).filter fun k => k / 27 == g) with
    | some k => s.setReg (Reg.PWR_GALLERY_SLACK g) (65536 * (k % 27) + wrapTo 16 (s.slackOf k))
    | none => s

/-- A slot marked by the margin plan, with its event; one that is marked already is not marked again (R633, R635). -/
def State.marginMark (s : State) (h k : Nat) : State :=
  if (s.hall h).marks.contains (k - 270 * h) then s else (s.markSlot h (k - 270 * h)).raise { src := 0x53, inst := h }

/-- The plan of a hall recomputed (R633): the marks that it sets, and its target. -/
def State.planHall (s : State) (h : Nat) : State :=
  let bad := (s.slotsOf h 0 ++ s.slotsOf h 1).filter fun k => 3200 < s.vreqOf k
  let s := s.each bad fun s k => s.marginMark h k
  let used := (s.slotsOf h 0).filter fun k => !(s.hall h).marks.contains (k - 270 * h)
  let top := used.foldl (fun v k => max v (s.vreqOf k)) 0
  (s.setFld (Reg.PWR_VCORE_PLAN h) 31 16 (max 2640 (alignUp top 10))).showSlacks h

/-- The marks of all halls. -/
def State.markCount (s : State) : Nat := (s.halls.map fun e => e.2.marks.length).sum

/-- The plan recomputed for some halls, and written to the live record (R632, R633, R638). -/
def State.recompute (s : State) (halls : List Nat) : State :=
  let before := s.markCount
  let s := s.each halls fun s h => s.planHall h
  let s := s.setReg Reg.PWR_MARGIN_STATUS (65536 * (s.markCount - before))
  (s.setReg Reg.PWR_MARGIN_FRAME s.frame).liveChange

/-- A maintenance landing (R632, R636): halls in a step, and halls whose recovery begins now, are skipped; EN allows the recomputation
(Table 19.6), and with AUTO_STEP a hall with marks is reset at step 8, as by an RST_REQ. -/
def State.maintenanceLanding (s : State) : State :=
  let due := s.power.maintenance
  let s : State := { s with power := { s.power with maintenance := false } }
  let ctrl := s.reg Reg.PWR_MARGIN_CTRL
  if ¬ due then s
  else
    let halls := (List.range 16).filter fun h => !s.inStep h && !s.recoveryDue h
    let s := if bit ctrl 31 then s.recompute halls else s
    if ¬ bit ctrl 30 then s
    else s.each (halls.filter fun h => (s.hall h).marks ≠ []) fun s h => s.onHall h fun x => { x with request := some (.hall, 0) }

end Sys2Proof.Machine
end

