-- ==== Sys2Proof/Machine/Power.lean ====
section
/-! DEFINITION. Power classes and the brake, the supervision of the input and the rails, telemetry, and the path-delay monitors
(19). -/
namespace Sys2Proof.Machine

/-! ### Classes and the brake (R626, R627) -/

/-- `CLASS_REQUEST`: a write of PWR_CLASS_REQ: the class takes effect at step 9 of the first landing whose snapshot follows, at once
while RUN = 0; classes 4 to 7 are ignored (R626). -/
def execClassRequest (v : W32) (s : State) : Host.Outcome State Fault Refusal :=
  let c := bits v.toNat 2 0
  .next <| s.whenReady <|
    if 3 < c then s
    else
      let s := s.setReg Reg.PWR_CLASS_REQ c
      if bit (s.reg Reg.FTK_CTRL) 0 then
        { s with power := { s.power with classReqs := s.power.classReqs ++ [(s.serial, c)] } }
      else s.applyClass c

/-- `PWR_BRAKE_N_FALL`: every array unit runs at DUTY 8, and the frame in progress is a late-start frame of every hall. While the
module is off the level waits for the first tick (R627, R649). -/
def execPwrBrakeNFall (s : State) : Host.Outcome State Fault Refusal :=
  let s : State := { s with power := { s.power with brake := true } }
  .next <|
    if ¬ s.power.good then s
    else
      let s := ({ s with power := { s.power with braking := true } } : State).showBrake
      if s.fr.ticked then s.each (List.range 16) fun s h => s.onHall h fun x => { x with lateStart := true } else s

/-- `PWR_BRAKE_N_RISE`: the duty of the class applies again from the next tick (R627). -/
def execPwrBrakeNRise (s : State) : Host.Outcome State Fault Refusal :=
  .next (({ s with power := { s.power with brake := false } } : State).setFld Reg.PWR_STATUS 16 16 0)

/-! ### Supervision (R620 to R622, R628) -/

/-- An event while the module has power. -/
def State.raiseOn (s : State) (e : Event) : State := if s.power.good then s.raise e else s

/-- `INPUT_UV`: the input has been below 45.0 V for 100 µs (R620). -/
def execInputUv (s : State) : Host.Outcome State Fault Refusal := .next (s.raiseOn { src := 0x4C })

/-- `INPUT_OV`: the input has been above 62.0 V for 100 µs (R620). -/
def execInputOv (s : State) : Host.Outcome State Fault Refusal := .next (s.raiseOn { src := 0x4D })

/-- `RAIL_FAULT`: a rail has been more than 5 % from its setpoint for 50 µs (R621). -/
def execRailFault (rail : BitVec 6) (s : State) : Host.Outcome State Fault Refusal :=
  .next (if rail.toNat ≤ 33 then s.raiseOn { src := 0x4E, inst := rail.toNat } else s)

/-- `HALL_DROOP`: a hall's VCORE has been more than 20 mV below its setpoint for 20 ns (R622). -/
def execHallDroop (hall : HallId) (s : State) : Host.Outcome State Fault Refusal :=
  .next (s.raiseOn { src := 0x26, hall := hall.toNat })

/-- POWER_TRANSIENT raised and counted; SMB_ALERT_N falls (R628, R660). -/
def State.powerTransient (s : State) : State :=
  let s : State := { s with power := { s.power with alert := true } }
  (s.count Reg.PWR_TRANSIENTS 1).raise { src := 0x4F }

/-- `INPUT_SAMPLE`: the 10 µs average of the input power: the peaks follow it, and an excursion above 3,900 W is reported
(R628, R629, R659). -/
def execInputSample (watts : W16) (s : State) : Host.Outcome State Fault Refusal :=
  let w := watts.toNat
  .next <|
    if ¬ s.power.good then s
    else
      let s := s.setReg Reg.PWR_INPUT_PEAK (max w (s.reg Reg.PWR_INPUT_PEAK))
      let above := decide (3900 < w)
      let new := above && !s.power.peakOver
      let s : State := { s with power := { s.power with smbPeak := max w s.power.smbPeak, peakOver := above } }
      if new then s.powerTransient else s

/-- The input power that the class in force, or the brake, allows (Table 19.2). -/
def State.wattLimit (s : State) : Nat := if s.power.braking then 1975 else 3200 - 350 * s.fld Reg.PWR_STATUS 2 0

/-- The 1 ms average checked: above the limit for more than 10 ms it is reported once (R628). -/
def State.checkAverage (s : State) (w : Nat) : State :=
  if w ≤ s.wattLimit then { s with power := { s.power with overSince := none, overNoted := false } }
  else match s.power.overSince with
    | none => { s with power := { s.power with overSince := some s.monoNs } }
    | some t =>
      if s.power.overNoted ∨ s.monoNs ≤ t + 10000000 then s
      else ({ s with power := { s.power with overNoted := true } } : State).powerTransient

/-- The setpoint of a rail in units of 0.25 mV (Table 19.1). -/
def State.railSet (s : State) (r : Nat) : Nat :=
  if r < 16 then s.setpoint r else if r < 20 then 3000 else if r < 24 then 1600 else if r < 28 then 4400 else if r = 28 then 7200
  else if r < 33 then 3600 else 13200

/-- The thresholds of a sensor in °C with the source of each (Table 19.3). -/
def tempThresholds (n : Nat) : List (Nat × Nat) :=
  if n < 16 then [(95, 0x27), (105, 0x51), (115, 0x52)]
  else if n < 24 then [(85, 0x16), (105, 0x52)]
  else if n < 28 then [(105, 0x51), (115, 0x52)]
  else []

/-- The event of a threshold of a sensor (Table 19.3). -/
def tempEvent (n src : Nat) : Event :=
  if src = 0x27 then { src := src, hall := n }
  else if src = 0x16 then { src := src, hall := 2 * (n - 16), inst := n - 16 }
  else { src := src, inst := n }

/-- A threshold of a sensor checked: its event begins at the value, and ends 5 °C below (R630, R660). -/
def State.checkTemp (s : State) (n : Nat) (t : Int) (e : Nat × Nat) : State :=
  let k := 128 * n + e.2
  if s.power.hot.contains k then
    (if t ≤ 16 * ((e.1 : Int) - 5) then { s with power := { s.power with hot := s.power.hot.filter (· ≠ k) } } else s)
  else if 16 * (e.1 : Int) ≤ t then
    ({ s with power := { s.power with hot := s.power.hot ++ [k], alert := true } } : State).raise (tempEvent n e.2)
  else s

/-- `TELEMETRY_UPDATE`: the registers of the input, the rails and the sensors follow the readings of a millisecond, which are
checked (R628 to R630). -/
def execTelemetryUpdate (t : Telemetry) (s : State) : Host.Outcome State Fault Refusal :=
  .next <|
    if ¬ s.power.good then s
    else
      let s := (s.setReg Reg.PWR_INPUT (65536 * t.mv.toNat + t.watts.toNat)).count64 Reg.PWR_ENERGY t.energy.toNat
      let s := s.each ((t.rails.take 34).zipIdx) fun s e =>
        s.setReg (Reg.PWR_RAIL e.2) (2 ^ 48 * s.railSet e.2 + 2 ^ 32 * e.1.1.toNat + e.1.2.toNat)
      let temps := ((t.temps.take 30).zipIdx).filterMap fun e => e.1.map fun v => (e.2, v)
      let s := s.each temps fun s e => s.setReg (Reg.PWR_TEMP e.1) (2 ^ 31 + e.2.toNat)
      let s := s.checkAverage t.watts.toNat
      s.each temps fun s e => s.each (tempThresholds e.1) fun s th => s.checkTemp e.1 (sext 16 e.2.toNat) th

/-! ### The margin plan (R632, R635) -/

/-- `MAINTENANCE_REQUEST`: a write of PWR_MAINT_REQ makes the next landing a maintenance landing (R632). -/
def execMaintenanceRequest (s : State) : Host.Outcome State Fault Refusal :=
  .next (s.whenReady { s with power := { s.power with maintenance := true } })

/-- `MAINTENANCE_INTERVAL`: HOURS hours have passed since the last recomputation (R632). -/
def execMaintenanceInterval (s : State) : Host.Outcome State Fault Refusal :=
  .next (s.whenReady { s with power := { s.power with maintenance := true } })

/-- What the monitors have read is kept. -/
def State.takeReadings (s : State) (l : List PathReading) : State :=
  s.each (l.filter fun r => r.gallery.toNat < 160 && r.slot.toNat < 27) fun s r =>
    let k := 27 * r.gallery.toNat + r.slot.toNat
    { s with power := { s.power with
        slacks := mapSet 0 s.power.slacks k r.slack.toNat, vreqs := mapSet 0 s.power.vreqs k r.vreq.toNat } }

/-- A slack below ALARM_PS of a slot in service: reported, and the target of the hall raised, or the slot marked where it cannot
rise; for a slot that is marked already it is only counted (R635, Table 19.4). -/
def State.pathAlarm (s : State) (k : Nat) : State :=
  let (h, j, t) := (k / 270, k % 270 / 27, k % 27)
  if s.inStep h ∨ (s.hall h).slotState j t ≠ 0 ∨ (s.fld Reg.PWR_MARGIN_CTRL 15 8 : Int) ≤ s.slackOf k then s
  else
    let s := s.raise { src := 0x23, hall := h, inst := j }
    let v := s.target h
    if (s.hall h).marks.contains (k % 270) ∨ v = 0 then s
    else if v < 3200 then s.setFld (Reg.PWR_VCORE_PLAN h) 31 16 (min 3200 (v + 10))
    else s.marginMark h k

/-- `PATH_DELAY_SAMPLE`: every 10 ms the monitors give the slack of slots (R635). -/
def execPathDelaySample (readings : List PathReading) (s : State) : Host.Outcome State Fault Refusal :=
  .next <| s.whenReady <|
    let s := s.takeReadings readings
    let s := s.each (readings.filter fun r => r.gallery.toNat < 160 && r.slot.toNat < 27) fun s r =>
      s.pathAlarm (27 * r.gallery.toNat + r.slot.toNat)
    s.each ((List.range 16).filter fun h => readings.any fun r => r.gallery.toNat / 10 == h) fun s h => s.showSlacks h

end Sys2Proof.Machine
end

