-- ==== Sys2Proof/Machine/LossScale.lean ====
section
/-! DEFINITION. The loss-scale groups: their registers, the landing-flag messages, the exchange of step 2 and the decision
(11 R379 to R388). -/
namespace Sys2Proof.Machine

def State.lsGroup (s : State) (g : Nat) : LsGroup := mapGet {} s.ls g
def State.onLs (s : State) (g : Nat) (f : LsGroup → LsGroup) : State := { s with ls := mapSet {} s.ls g (f (s.lsGroup g)) }

/-- Whether a group is enabled, the context it is bound to, its rounds and its peers in use (Table 11.9). -/
def State.lsOn (s : State) (g : Nat) : Bool := bit (s.reg (Reg.CTX_LS_CTRL g)) 31
def State.lsCtx (s : State) (g : Nat) : Nat := s.fld (Reg.CTX_LS_CTRL g) 27 16
def State.lsRounds (s : State) (g : Nat) : Nat := s.fld (Reg.CTX_LS_CTRL g) 9 8 + 1
def State.lsPeers (s : State) (g : Nat) : List Nat :=
  (List.range (s.fld (Reg.CTX_LS_CTRL g) 5 0)).map fun i => s.fld (Reg.CTX_LS_PEER g (i / 2)) (16 * (i % 2) + 15) (16 * (i % 2))
/-- The current exponent. -/
def State.lsExp (s : State) (g : Nat) : Nat := s.fld (Reg.CTX_LS_STATE g) 31 24

/-- Records a code of Table 11.7 for a group. -/
def State.lsCode (s : State) (g code : Nat) : State := s.setFld (Reg.CTX_LS_STATUS g) 15 0 code

/-- Records a code for a group and raises its event, tagged with the group's context (R382, R387). -/
def State.lsEvent (s : State) (g src code : Nat) : State :=
  (s.lsCode g code).raise { src := src, ctx := some (s.lsCtx g), code := code, inst := g }

/-! ### The exchange (R381 to R383) -/

/-- A group's message of a round sent to every peer (Table 11.4). -/
def State.lsSend (s : State) (g round : Nat) (flag late : Bool) : State :=
  let c := s.ctx (s.lsCtx g)
  s.each (s.lsPeers g) fun s d => s.post
    { type := .lsflag, ddev := BitVec.ofNat 16 d, dst := ⟨0, 0⟩, sdev := BitVec.ofNat 16 s.deviceId, src := ⟨0, 0⟩
      job := BitVec.ofNat 16 c.job, epoch := BitVec.ofNat 16 c.epoch, frame := BitVec.ofNat 16 s.frame, round := BitVec.ofNat 2 round, flag := flag, late := late
      step := BitVec.ofNat 32 (s.reg (Reg.CTX_LS_STEP g)), exp := BitVec.ofNat 8 (s.lsExp g) }

/-- The numbers 2^e and 2^-e as FP32 encodings, for an exponent in the range of Table 11.9; beyond it they are open. -/
def State.lsScales (s : State) (e : Nat) : Nat × Nat × State :=
  if e ≤ 126 then (2 ^ 23 * (127 + e), 2 ^ 23 * (127 - e), s)
  else (bits s.freeValue.toNat 31 0, bits s.drawn.freeValue.toNat 31 0, s.drawn.drawn)

/-- The exponent and the clean count that a decision gives (R385). -/
def State.lsNext (s : State) (g : Nat) : Nat × Nat :=
  let lim := s.reg (Reg.CTX_LS_LIMITS g)
  let e := s.lsExp g
  let clean := (s.fld (Reg.CTX_LS_STATE g) 15 0 + 1) % 65536
  if (s.lsGroup g).stepOvf then (max (e - 1) (bits lim 23 16), 0)
  else if clean = bits lim 15 0 then (min (e + 1) (bits lim 31 24), 0)
  else (e, clean)

/-- The record of a decision, with the numbers 2^e and 2^-e (R386, Table 11.9). -/
def State.lsRecord (s : State) (g step up down : Nat) : List Byte :=
  let x := s.lsGroup g
  let e := s.lsExp g
  let n := s.lsNext g
  let flags := b2n x.stepOvf + 2 * b2n (n.1 < e) + 4 * b2n (e < n.1) + 8 * b2n x.missed + 16 * b2n x.diverged
  leBytes 8 (2 ^ 63 + s.frame % 2 ^ 48) ++ leBytes 4 step ++ leBytes 1 n.1 ++ leBytes 1 flags ++ leBytes 2 n.2
    ++ leBytes 4 up ++ leBytes 4 down ++ List.replicate 40 0

/-- The decision of R385 and its record (R386). -/
def State.lsDecide (s : State) (g : Nat) : State :=
  let n := s.lsNext g
  let step := (s.reg (Reg.CTX_LS_STEP g) + 1) % 2 ^ 32
  let scales := s.lsScales n.1
  let record := s.lsRecord g step scales.1 scales.2.1
  let skipped := (s.lsGroup g).stepOvf
  let s := (scales.2.2.setReg (Reg.CTX_LS_STATE g) (2 ^ 24 * n.1 + n.2)).setReg (Reg.CTX_LS_STEP g) step
  let s := if skipped then s.count (Reg.CTX_LS_SKIPS g) 1 else s
  (s.storeHbm (s.reg (Reg.CTX_LS_REC g)) record).onLs g fun x =>
    { x with stepOvf := false, request := none, missed := false, diverged := false }

/-- The end of a group's exchange: its result joins the step's overflow, and a request that is due is decided (R381,
R384); an EN = 0 written during it acts now (R66). -/
def State.lsFinish (s : State) (g : Nat) : State :=
  let stop := (s.lsGroup g).stopping
  let s := s.onLs g fun x => { x with inStep2 := false, stopping := false, stepOvf := x.stepOvf || x.acc }
  let s := match (s.lsGroup g).request with
    | some (serial, f) => if serial < s.fr.snap ∧ f ≤ s.frame then s.lsDecide g else s
    | none => s
  if stop then s.lsDisable g else s

/-- A group begins step 2 with the OR of its context's overflow flags. A late one only sends, and counts the landing as an
overflow (R381, R383). One without peers has nothing to wait for. -/
def State.lsBegin (s : State) (g : Nat) (known late : Bool) : State :=
  if late then
    (s.each (List.range (s.lsRounds g)) fun s k => s.lsSend g k true true).onLs g fun x => { x with stepOvf := true }
  else
    let s := s.onLs g fun x => { x with inStep2 := true, round := 0, acc := known }
    let s := s.lsSend g 0 known false
    if (s.lsPeers g).isEmpty then s.lsFinish g else s

/-- The end of a round: a peer whose message is missing counts as an overflow; then the next round begins, or the exchange
ends (R381, R382). -/
def State.lsNextRound (s : State) (g : Nat) : State :=
  let x := s.lsGroup g
  let got := s.lsPeers g |>.map fun d => (x.msgs.find? fun m => m.peer == d && m.round == x.round).map (·.flag)
  let missing := (got.filter (·.isNone)).length
  let known := x.acc || got.any fun m => m.getD true
  let s := s.each (List.range missing) fun s _ => (s.count (Reg.CTX_LS_MISSED g) 1).lsEvent g 0x49 Code.LS_FLAG_MISSED
  let s := s.onLs g fun x => { x with acc := known, missed := x.missed || missing != 0, round := x.round + 1 }
  if x.round + 1 < s.lsRounds g then s.lsSend g (x.round + 1) known false else s.lsFinish g

/-- The end of a round of a group's exchange; that of a group whose context was destroyed ends without a further message (log
entry 107). -/
def State.lsRoundEnd (s : State) (g : Nat) : State :=
  if (s.lsGroup g).gone then s.onLs g fun x => { x with inStep2 := false, gone := false, stopping := false } else s.lsNextRound g

/-- The group whose context carries a job tag (R382). -/
def State.lsGroupFor (s : State) (job : Nat) : Option Nat :=
  (List.range 16).find? fun g => s.lsOn g && (s.ctx (s.lsCtx g)).job == job

/-- `LSFLAG`: a landing-flag message is matched to its group and held for its round; an EXP that differs at the same STEP is
reported (R382, R387). A message of another frame, or for no group, is discarded. -/
def execLsflag (port : Option PortId) (p : Packet) (s : State) : Host.Outcome State Fault Refusal :=
  .next (s.arriveDevice port p .lsflag fun s =>
    match s.lsGroupFor p.job.toNat with
    | none => s
    | some g =>
      if p.frame.toNat ≠ s.frame % 65536 then s
      else
        let m : LsMsg :=
          { peer := p.sdev.toNat, round := p.round.toNat, flag := p.flag, late := p.late, step := p.step.toNat, exp := p.exp.toNat }
        let s := s.onLs g fun x => { x with msgs := x.msgs ++ [m] }
        if m.step = s.reg (Reg.CTX_LS_STEP g) ∧ m.exp ≠ s.lsExp g then
          ((s.setFld (Reg.CTX_LS_STATUS g) 29 29 1).onLs g fun x => { x with diverged := true }).lsEvent g 0x48 Code.LS_DIVERGED
        else s)

/-! ### The registers (R384, R388) -/

/-- A write of CTX_LS_DECIDE (R384). -/
def State.writeLsDecide (s : State) (k v : Nat) : State :=
  if ¬ s.lsOn k ∨ (s.lsGroup k).request.isSome then s.lsCode k Code.LS_DECIDE_REFUSED
  else s.onLs k fun x => { x with request := some (s.serial, bits v 47 0) }

/-- `CTX_LS_DECIDE`: a decision is requested for a frame, or refused for a disabled group or one with a request pending
(R384). -/
def execCtxLsDecide (g : BitVec 4) (v : W64) (s : State) : Host.Outcome State Fault Refusal :=
  .next (s.whenReady ((s.dropHalves (Reg.CTX_LS_DECIDE g.toNat)).writeLsDecide g.toNat v.toNat))

/-- Whether an enabled group would keep R388 and R379. -/
def State.lsConfigOk (s : State) (g ctrl : Nat) : Bool :=
  let c := bits ctrl 27 16
  let x := s.ctx c
  let lim := s.reg (Reg.CTX_LS_LIMITS g)
  let rec_ := s.reg (Reg.CTX_LS_REC g)
  let e := s.lsExp g
  x.state != .free && rec_ % 64 == 0
    && x.ranges.any (fun r => r.kind == 1 && 65536 * r.base ≤ rec_ && rec_ + 64 ≤ 65536 * (r.base + r.pages))
    && bits lim 23 16 ≤ bits lim 31 24 && bits lim 23 16 ≤ e && e ≤ bits lim 31 24 && bits lim 15 0 != 0 && bits ctrl 5 0 ≤ 32
    && (s.lsGroupOf c).isNone

/-- `CTX_LS_CTRL_WRITE`: while EN = 1 a write acts on EN alone; while EN = 0 it sets the other fields and, with EN = 1,
enables the group or is refused (R388). An EN = 0 during the group's exchange is a loss-scale setting accepted after the snapshot:
it acts when the exchange has ended (R66, log entry 107). -/
def execCtxLsCtrlWrite (g : BitVec 4) (v : W32) (s : State) : Host.Outcome State Fault Refusal :=
  let k := g.toNat
  let v := v.toNat
  .next <| s.whenReady <|
    if s.lsOn k then
      (if bit v 31 then s else if (s.lsGroup k).inStep2 then s.onLs k fun x => { x with stopping := true } else s.lsDisable k)
    else if bit v 31 ∧ ¬ s.feature featLoss then s.featureCode Code.FEATURE_NOT_ACCEPTED
    else if ¬ bit v 31 then s.setReg (Reg.CTX_LS_CTRL k) (v &&& 0x0FFF033F)
    else if ¬ s.lsConfigOk k v then s.lsCode k Code.LS_CONFIG
    else (s.setReg (Reg.CTX_LS_CTRL k) (v &&& 0x8FFF033F)).setReg (Reg.CTX_LS_STEP k) 0

end Sys2Proof.Machine
end

