-- ==== Sys2Proof/Machine/FrameTick.lean ====
section
/-! DEFINITION. The device time counter and its discipline, the start and the stop of ticks, the frame configuration, and the
tick (02 R48 to R63, R81, R82; 20 R655, R656). -/
namespace Sys2Proof.Machine

/-- Records a code of Table 2.4 and raises its event. -/
def State.ftkCode (s : State) (src code : Nat) : State :=
  (s.setFld Reg.FTK_STATUS 31 16 code).raise { src := src, code := code }

/-! ### The discipline states (Table 2.1, R684) -/

/-- The source that disciplines the counter: 0 none, 1 PTP, 2 1PPS_IN, 3 PTP with 1PPS_IN phase. -/
def State.source (s : State) : Nat := s.fld Reg.FTK_CTRL 6 5

/-- The counter enters a discipline state; the measurements counted for a lock begin again, and but for LOCKED there is no offset
left to slew. FTK_OFFSET reads 0 in UNSET and FREERUN (Table 2.6). -/
def State.setDisc (s : State) (d : Disc) : State :=
  let s : State := { s with clk := { s.clk with
    disc := d, lockRun := 0, fromHoldover := s.clk.disc = .holdover && d = .freerun
    remain := if d = .locked then s.clk.remain else 0 } }
  if d = .freerun ∨ d = .unset then s.setReg Reg.FTK_OFFSET 0 else s

/-- A 32-bit two's complement number, saturated. -/
def sat32 (i : Int) : Nat := wrapTo 32 (max (-2147483648) (min 2147483647 i))

/-- Whether the source 0b11 lacks one of its two inputs: it is lost then, and what the other one measures does not count
(R684, log entry 105). -/
def State.halfLost (s : State) : Bool := s.source == 3 && (s.clk.ppsLost || s.clk.ptpLost)

/-- An offset corrected: with no ticks, one beyond 1 µs steps the counter, which loads it in ACQUIRING; any other is slewed, and
the frequency correction follows the measurement (R52, R53, R685). -/
def State.correct (s : State) (o : Int) : State :=
  let freq := clampPpm (Config.freqPpm s.cycles)
  if ¬ s.fr.ticking ∧ 1000 * (unitsPerNs : Int) < o.natAbs then
    ({ s with clk := { s.clk with
        time := (s.clk.time - o).toNat, loaded := s.clk.loaded || s.clk.disc == .acquiring, remain := 0, freq := freq } } : State).setReg
      Reg.FTK_OFFSET 0
  else
    ({ s with clk := { s.clk with remain := o, freq := freq } } : State).setReg Reg.FTK_OFFSET
      (if s.clk.disc = .freerun then 0 else sat32 (o.tdiv unitsPerNs))

/-- An offset of the device from its source, measured in the units of the counter (R52, R53, R684, R685): offsets that return in
HOLDOVER, or in a FREERUN entered from it, give ACQUIRING; with ticks, one beyond 10 µs is recorded once for each excursion;
eight small ones in succession lock a loaded counter. -/
def State.offsetSample (s : State) (o : Int) : State :=
  if s.halfLost then s
  else
    let back := s.clk.disc = .holdover ∨ (s.clk.disc = .freerun ∧ s.clk.fromHoldover)
    let s := (if back then s.setDisc .acquiring else s).correct o
    let big := s.fr.ticking ∧ 10000 * (unitsPerNs : Int) < o.natAbs
    let s := if big ∧ ¬ s.clk.excursion then s.ftkCode 0x31 Code.TIME_STEP_REFUSED else s
    let small := decide (o.natAbs ≤ s.fld Reg.FTK_LOCK_NS 7 0 * (unitsPerNs : Int))
    let s : State := { s with clk := { s.clk with excursion := decide big, lockRun := if small then s.clk.lockRun + 1 else 0 } }
    if s.clk.disc = .acquiring ∧ s.clk.loaded ∧ 8 ≤ s.clk.lockRun then s.setDisc .locked else s

/-- The source is lost: LOCKED gives HOLDOVER, and in ACQUIRING the count begins again; the counter runs on with the frequency
correction that it has (R50, R684). -/
def State.sourceLost (s : State) : State :=
  if s.clk.disc = .locked then s.setDisc .holdover
  else { s with clk := { s.clk with lockRun := 0, remain := if s.clk.disc = .acquiring then 0 else s.clk.remain } }

/-- `HOLDOVER_EXPIRED`: HOLDOVER that outlasts its limit gives FREERUN (R54). -/
def execHoldoverExpired (s : State) : Host.Outcome State Fault Refusal :=
  .next (if s.clk.disc = .holdover then (s.setDisc .freerun).ftkCode 0x33 Code.HOLDOVER_EXPIRED else s)

/-- `PPS_IN_EDGE`: the edge is captured, and where the source uses it, the counter's distance from a whole second is an
offset (R655, R684). -/
def execPpsInEdge (s : State) : Host.Outcome State Fault Refusal :=
  let s := (s.setReg Reg.FTK_PPS_IN_SEC s.timeSec).setReg Reg.FTK_PPS_IN_NSF s.timeNsf
  let second := unitsPerNs * 1000000000
  let r := s.clk.time % second
  let o : Int := if 2 * r < second then r else r - second
  .next <|
    if s.source = 2 ∨ (s.source = 3 ∧ s.clk.loaded) then
      ({ s with clk := { s.clk with ppsLost := false } } : State).offsetSample o
    else s

/-- `PPS_IN_MISSING`: no edge for 1.5 s while the source uses the pin loses the source (R684, Table 16.2). -/
def execPpsInMissing (s : State) : Host.Outcome State Fault Refusal :=
  .next <|
    if s.source = 2 ∨ s.source = 3 then
      (({ s with clk := { s.clk with ppsLost := true } } : State).sourceLost).raise { src := 0x35 }
    else s

/-- `PPS_OUT_SECOND`: the counter reaches a whole second; in the mode SECOND, 1PPS_OUT gives a pulse of 10 µs (Table 2.6,
R656). -/
def execPpsOutSecond (s : State) : Host.Outcome State Fault Refusal :=
  .next <|
    if ¬ s.clk.loaded then s
    else
      let s := s.advanceTo (1000000000 * (s.timeNs / 1000000000 + 1))
      if s.fld Reg.FTK_PPS_CTRL 1 0 = 1 then s.emit (.ppsPulse 10000) else s

/-! ### FTK_CTRL (R58 to R61) -/

/-- A write of RUN after SOURCE and ALLOW_UNLOCKED have been applied. -/
def State.writeRun (s : State) (run : Bool) : State :=
  let old := bit (s.reg Reg.FTK_CTRL) 0
  if run ∧ ¬ old then
    if s.fr.ticking then { s.setFld Reg.FTK_CTRL 0 0 1 with fr := { s.fr with stopPending := false } }
    else
      let allow := bit (s.reg Reg.FTK_CTRL) 7
      if s.clk.loaded ∧ (s.clk.disc = .locked ∨ (allow ∧ s.clk.disc ≠ .unset)) then
        { s.setFld Reg.FTK_CTRL 0 0 1 with fr := { s.fr with starting := true, runAt := s.monoNs } }
      else s.ftkCode 0x30 Code.TIME_UNLOCKED
  else if ¬ run ∧ old then
    let s := s.setFld Reg.FTK_CTRL 0 0 0
    let quiet := s.fr.landing = .closed ∧ ¬ s.fr.ticked
    { s with fr := { s.fr with
        starting := false, stopPending := s.fr.ticking && !quiet, ticking := s.fr.ticking && !quiet } }
  else s

/-- A write of FTK_CTRL: SOURCE and ALLOW_UNLOCKED first, with the change of discipline state that they cause, then RUN (R58,
R59, R684). -/
def State.writeFtkCtrl (s : State) (v : Nat) : State :=
  let old := s.source
  let new := bits v 6 5
  let s := (s.setFld Reg.FTK_CTRL 6 5 new).setFld Reg.FTK_CTRL 7 7 (b2n (bit v 7))
  let s :=
    if new = old then s
    else
      let s : State := { s with clk := { s.clk with ppsLost := false, ptpLost := false } }
      if new ≠ 0 then s.setDisc .acquiring else if s.clk.disc = .unset then s else s.setDisc .freerun
  s.writeRun (bit v 0)

/-- `FTK_SOURCE_CHANGE`: a write of FTK_CTRL that changes SOURCE (R58, R684). -/
def execFtkSourceChange (v : W32) (s : State) : Host.Outcome State Fault Refusal := .next (s.whenReady (s.writeFtkCtrl v.toNat))

/-- `FTK_RUN_START`: a write of FTK_CTRL that sets RUN from 0 to 1 (R59, R60). -/
def execFtkRunStart (v : W32) (s : State) : Host.Outcome State Fault Refusal :=
  .next (s.whenReady (s.writeFtkCtrl (setBits v.toNat 0 0 1)))

/-- `FTK_RUN_STOP`: a write of FTK_CTRL that sets RUN to 0 (R61). -/
def execFtkRunStop (v : W32) (s : State) : Host.Outcome State Fault Refusal :=
  .next (s.whenReady (s.writeFtkCtrl (setBits v.toNat 0 0 0)))

/-! ### Loading and capturing the counter (R57, R684, R685) -/

/-- Whether frame configuration is locked (R57). -/
def State.frameLocked (s : State) : Bool := bit (s.reg Reg.FTK_CTRL) 0 || s.fr.ticking

/-- A write of FTK_SET (R57, R684, R685). -/
def State.writeFtkSet (s : State) : State :=
  if s.frameLocked then s.ftkCode 0x34 Code.FRAME_CFG_LOCKED
  else
    let t := unitsPerNs * (1000000000 * s.reg Reg.FTK_SET_SEC + s.reg Reg.FTK_SET_NS)
    ({ s with clk := { s.clk with time := t, loaded := true } } : State).setDisc
      (if s.source = 0 then .freerun else .acquiring)

/-- A write of FTK_SNAP (R685). -/
def State.writeFtkSnap (s : State) : State :=
  ((s.setReg Reg.FTK_SNAP_SEC s.timeSec).setReg Reg.FTK_SNAP_NSF s.timeNsf).setReg Reg.FTK_SNAP_FRAME s.frame

/-- `FTK_SET`: loads the counter from FTK_SET_SEC and FTK_SET_NS, or is ignored while frame configuration is locked. -/
def execFtkSet (s : State) : Host.Outcome State Fault Refusal := .next (s.whenReady s.writeFtkSet)

/-- `FTK_SNAP`: captures the counter and the frame number. -/
def execFtkSnap (s : State) : Host.Outcome State Fault Refusal := .next (s.whenReady s.writeFtkSnap)

/-! ### Frame configuration (R56, R57, R65) -/

/-- The cycles of budget(159) for a configuration (R65). -/
def budgetOf (period landing : Nat) : Nat := 7 * (period - landing - 636) / 4 - ceilDiv (7 * period) 80000

/-- Whether a value lies in the range of R56 for a register of the FTK block or HAL_FRAME_POLICY. -/
def State.frameValueOk (s : State) (off v : Nat) : Bool :=
  let within (lo hi : Nat) : Bool := lo ≤ v && v ≤ hi
  if off = Reg.FTK_PERIOD then within 50000 2000000
  else if off = Reg.FTK_LANDING then within 2000 20000 && s.reg Reg.FTK_OR_WINDOW + 1250 ≤ v
  else if off = Reg.FTK_OR_WINDOW then within 250 4000 && v + 1250 ≤ s.reg Reg.FTK_LANDING
  else if off = Reg.FTK_RAMP then within 16 64
  else if off = Reg.FTK_LOCK_NS then within 1 255
  else if off = Reg.FTK_HOLDOVER_LIMIT then within 1 3600
  else if off = Reg.FTK_SET_NS ∨ off = Reg.FTK_EPOCH_NS then v ≤ 999999999
  else if off = Reg.FTK_PPS_CTRL then 1 ≤ bits v 31 16
  else if 0x1000000 ≤ off then bits v 3 0 ≠ 0
  else true

/-- Whether a register is one of the frame configuration of R56. -/
def frameCfgReg (off : Nat) : Bool :=
  [Reg.FTK_SET_SEC, Reg.FTK_SET_NS, Reg.FTK_LOCK_NS, Reg.FTK_PERIOD, Reg.FTK_LANDING, Reg.FTK_OR_WINDOW, Reg.FTK_RAMP,
    Reg.FTK_EPOCH_SEC, Reg.FTK_EPOCH_NS, Reg.FTK_HOLDOVER_LIMIT, Reg.FTK_PPS_CTRL, Reg.FTK_SKEW_TOL].contains off
  || (List.range 16).any fun h => Reg.HAL_FRAME_POLICY h == off

/-- A write of a frame configuration register (R56, R57): locked registers are ignored while ticks run, values out of range
are refused whole, and FTK_BUDGET follows. A register that is locked and would also be out of range is judged locked: the order of
the two checks is the model's (DESIGN CHOICE, log entry 106). 1PPS_OUT falls when its mode is no longer LANDING (R656). -/
def State.writeFrameCfg (s : State) (off v : Nat) : State :=
  match regRow off with
  | none => s
  | some r =>
    let v := v &&& r.rw
    let lock := [Reg.FTK_PERIOD, Reg.FTK_LANDING, Reg.FTK_OR_WINDOW, Reg.FTK_RAMP, Reg.FTK_EPOCH_SEC, Reg.FTK_EPOCH_NS].contains off
    if ¬ frameCfgReg off then s
    else if lock ∧ s.frameLocked then s.ftkCode 0x34 Code.FRAME_CFG_LOCKED
    else if ¬ s.frameValueOk off v then s.ftkCode 0x34 Code.FRAME_CFG_INVALID
    else
      let s := s.setReg off v
      let s := if off = Reg.FTK_PPS_CTRL ∧ bits v 1 0 ≠ 3 then s.ppsLow else s
      s.setReg Reg.FTK_BUDGET (budgetOf (s.reg Reg.FTK_PERIOD) (s.reg Reg.FTK_LANDING))

/-- `FTK_CONFIG_WRITE`: a write of a frame configuration register or of HAL_FRAME_POLICY. -/
def execFtkConfigWrite (off : W32) (v : W64) (s : State) : Host.Outcome State Fault Refusal :=
  .next (s.whenReady ((s.dropHalves off.toNat).writeFrameCfg off.toNat v.toNat))

/-! ### The tick (R55, R60, R61, R70) -/

/-- The instant in ns at which frame `n` begins (R55). -/
def State.frameStart (s : State) (n : Nat) : Nat :=
  1000000000 * s.reg Reg.FTK_EPOCH_SEC + s.reg Reg.FTK_EPOCH_NS + n * s.reg Reg.FTK_PERIOD

/-- The number of the frame that a tick begins: the first boundary at least 10 µs after RUN was accepted and not before the
epoch; afterwards the next frame (R55, R60). -/
def State.nextFrame (s : State) : Nat :=
  let epoch := s.frameStart 0
  let p := s.reg Reg.FTK_PERIOD
  if s.fr.starting then ceilDiv (ceilDiv s.clk.time unitsPerNs + (s.fr.runAt + 10000 - s.monoNs) - epoch) p
  else max (s.frame + 1) ((s.timeNs - epoch) / p)

/-- `TICK`: the frame number increases at a frame boundary. It comes once steps 1 to 5 of the last landing are done, and not
while a stop is pending; a hall that is still in steps 6 to 9 starts late, as every hall does under the brake; no core has made progress in the new frame yet (R73); the duty of the
class applies again after the brake has risen (R55, R61, R70, R71, R627). -/
def execTick (s : State) : Host.Outcome State Fault Refusal :=
  .next <|
    if ¬ (s.fr.starting ∨ (s.fr.ticking ∧ ¬ s.fr.stopPending)) ∨ s.fr.ticked ∨ s.fr.landing = .step2 ∨ ¬ s.clk.loaded then s
    else
      let n := s.nextFrame
      let s := s.advanceTo (s.frameStart n)
      let s := s.setReg Reg.FTK_FRAME n
      let s : State := { s with fr := { s.fr with ticking := true, starting := false, ticked := true } }
      let s := s.each (List.range 16) fun s h => s.onHall h fun x =>
        { x with started := 0, galleryStart := [], lateStart := decide (x.stage ≠ .done) || s.power.brake }
      let s := s.each (s.cores.filter (·.2.seq.progress)) fun s e => s.onSeq e.1 fun q => { q with progress := false }
      let s := if s.power.brake then ({ s with power := { s.power with braking := true } } : State).showBrake
        else if s.power.braking then
          ({ s with power := { s.power with braking := false } } : State).setFld Reg.PWR_STATUS 14 8 (64 - 16 * s.fld Reg.PWR_STATUS 2 0)
        else s
      let s := s.each (List.range 16) fun s g => s.onLs g fun x => { x with msgs := [] }
      let c := s.reg Reg.FTK_PPS_CTRL
      if bits c 1 0 = 2 ∧ n % bits c 31 16 = 0 then s.emit (.ppsPulse 100) else s

end Sys2Proof.Machine
end

