-- ==== Sys2Proof/Machine/Uzosyn.lean ====
section
/-! DEFINITION. The instructions of a control processor but for the messages (06): integer, address and predicate
instructions, branches, loads and stores, descriptors, step tables, waits, CSRs and traps. -/
namespace Sys2Proof.Machine

/-! ### Registers (R192) -/

def Cp.sreg (c : Cp) (r : Nat) : W32 := if r = 0 then 0 else mapGet 0 c.s r
def Cp.setS (c : Cp) (r : Nat) (v : W32) : Cp := if r = 0 then c else { c with s := mapSet 0 c.s r v }
def Cp.areg (c : Cp) (r : Nat) : W64 := mapGet 0 c.a r
def Cp.setA (c : Cp) (r : Nat) (v : W64) : Cp := { c with a := mapSet 0 c.a r v }
def Cp.preg (c : Cp) (r : Nat) : Bool := r = 0 || c.p.getLsbD r
def Cp.setP (c : Cp) (r : Nat) (b : Bool) : Cp :=
  if r = 0 then c else { c with p := BitVec.ofNat 8 (setBits c.p.toNat r r (b2n b)) }
def Cp.dreg (c : Cp) (r : Nat) : DReg := mapGet {} c.d r
def Cp.setD (c : Cp) (r : Nat) (x : DReg) : Cp := { c with d := mapSet {} c.d r x }

/-- Whether a coordinate lies in the grid. -/
def inGrid (c : Coord) : Bool := c.x.toNat < 80 && c.y.toNat < 50

/-- Whether the control processor of a core can issue an instruction: it runs a kernel and is neither halted nor blocked, its
hall is not being handed over (R203), and no reset step covers the hall. -/
def State.cpReady (s : State) (core : Coord) : Bool :=
  let c := (s.core (coreNo core)).cp
  let h := coreHall (coreNo core)
  inGrid core && !c.stopped && !c.halted && c.block == .none && (s.hall h).stage != .handover && !s.inStep h

/-! ### Traps (R205 to R209) -/

/-- The trap causes of Table 6.4. -/
inductive TrapCause where
  | illegal | pcRange | alcoveRange | misaligned | csrAccess | descCreate | descUnset | tableState | patchInvalid | msgDest
  | software
deriving DecidableEq, Repr

def TrapCause.code : TrapCause → Nat
  | .illegal => 1 | .pcRange => 2 | .alcoveRange => 3 | .misaligned => 4 | .csrAccess => 5 | .descCreate => 6
  | .descUnset => 7 | .tableState => 8 | .patchInvalid => 9 | .msgDest => 0x0A | .software => 0x0B

/-- A trap of the instruction at `epc`: its cause is reported where Table 6.4 says always; it enters the handler, or, with
the handler disabled or already entered, halts the control processor and raises CP_HALT (R206, R208, R209). -/
def State.trapAt (s : State) (n : Nat) (cause : TrapCause) (tval : Nat) (epc : Nat) : State :=
  let h := coreHall n
  let ctx := s.holderOf n
  let cp := (s.core n).cp
  let s := match cause with
    | .descCreate => s.raise { src := 1, hall := h, ctx := ctx, code := tval, x := coreX n, y := coreY n }
    | .msgDest => s.raise { src := 2, hall := h, ctx := ctx, x := coreX n, y := coreY n }
    | _ => s
  let note (c : Cp) : Cp :=
    { c with tepc := BitVec.ofNat 12 epc, tcause := BitVec.ofNat 8 cause.code, tval := BitVec.ofNat 64 tval }
  if cp.tvec.getLsbD 12 ∧ ¬ cp.inHandler then
    s.onCp n fun c => { note c with inHandler := true, pc := c.tvec.truncate 12 }
  else
    (s.onCp n fun c => { note c with halted := true }).raise
      { src := 0, hall := h, ctx := ctx, inst := cause.code, x := coreX n, y := coreY n }

/-- A trap of the instruction at pc. -/
def State.trap (s : State) (n : Nat) (cause : TrapCause) (tval : Nat) : State :=
  s.trapAt n cause tval (s.core n).cp.pc.toNat

/-! ### Retirement (R197, R219) -/

/-- An instruction retires and the next in sequence follows. A sequential fetch beyond index 4,095 traps (R219, log entry
19). -/
def State.retire (s : State) (n : Nat) : State :=
  let pc := (s.core n).cp.pc.toNat
  let s := s.onCp n fun c => { c with instret := c.instret + 1 }
  if pc = 4095 then s.trap n .pcRange 4096 else s.onCp n fun c => { c with pc := c.pc + 1 }

/-- An instruction retires and goes on at another index. -/
def State.retireTo (s : State) (n t : Nat) : State :=
  s.onCp n fun c => { c with instret := c.instret + 1, pc := BitVec.ofNat 12 t }

/-- One instruction of the core's control processor: nothing happens while it cannot issue. -/
def State.instr (s : State) (core : Coord) (f : Nat → Cp → State → State) : State :=
  if s.cpReady core then f (coreNo core) (s.core (coreNo core)).cp s else s

/-- An instruction that changes registers only, and retires. -/
def State.regInstr (s : State) (core : Coord) (f : Cp → Cp) : State := s.instr core fun n _ s => (s.onCp n f).retire n

/-! ### Integer, address and predicate instructions (R214 to R218) -/

def State.intOp (s : State) (core : Coord) (rd rs1 rs2 : RegNo) (f : W32 → W32 → W32) : State :=
  s.regInstr core fun c => c.setS rd.toNat (f (c.sreg rs1.toNat) (c.sreg rs2.toNat))
def State.immOp (s : State) (core : Coord) (rd rs1 : RegNo) (f : W32 → W32) : State :=
  s.regInstr core fun c => c.setS rd.toNat (f (c.sreg rs1.toNat))

/-- Quotients and remainders (R215): by zero the quotient is all ones and the remainder the dividend. -/
def divS (a b : W32) : W32 := if b = 0 then 0xFFFFFFFF else BitVec.ofInt 32 (a.toInt.tdiv b.toInt)
def divU (a b : W32) : W32 := if b = 0 then 0xFFFFFFFF else a / b
def remS (a b : W32) : W32 := if b = 0 then a else BitVec.ofInt 32 (a.toInt.tmod b.toInt)
def remU (a b : W32) : W32 := if b = 0 then a else a % b

/-- `ADD`: s[RD] := s[RS1] + s[RS2]. -/
def execAdd (core : Coord) (rd rs1 rs2 : RegNo) (s : State) : Host.Outcome State Fault Refusal :=
  .next (s.intOp core rd rs1 rs2 (fun a b => a + b))

/-- `SUB`: s[RD] := s[RS1] − s[RS2]. -/
def execSub (core : Coord) (rd rs1 rs2 : RegNo) (s : State) : Host.Outcome State Fault Refusal :=
  .next (s.intOp core rd rs1 rs2 (fun a b => a - b))

/-- `AND`: s[RD] := the bitwise and. -/
def execAnd (core : Coord) (rd rs1 rs2 : RegNo) (s : State) : Host.Outcome State Fault Refusal :=
  .next (s.intOp core rd rs1 rs2 (fun a b => a &&& b))

/-- `OR`: s[RD] := the bitwise or. -/
def execOr (core : Coord) (rd rs1 rs2 : RegNo) (s : State) : Host.Outcome State Fault Refusal :=
  .next (s.intOp core rd rs1 rs2 (fun a b => a ||| b))

/-- `XOR`: s[RD] := the bitwise exclusive or. -/
def execXor (core : Coord) (rd rs1 rs2 : RegNo) (s : State) : Host.Outcome State Fault Refusal :=
  .next (s.intOp core rd rs1 rs2 (fun a b => a ^^^ b))

/-- `SLL`: s[RD] := s[RS1] shifted left by s[RS2] [4:0]. -/
def execSll (core : Coord) (rd rs1 rs2 : RegNo) (s : State) : Host.Outcome State Fault Refusal :=
  .next (s.intOp core rd rs1 rs2 (fun a b => a <<< (b.toNat % 32)))

/-- `SRL`: s[RD] := s[RS1] shifted right by s[RS2] [4:0]. -/
def execSrl (core : Coord) (rd rs1 rs2 : RegNo) (s : State) : Host.Outcome State Fault Refusal :=
  .next (s.intOp core rd rs1 rs2 (fun a b => a >>> (b.toNat % 32)))

/-- `SRA`: s[RD] := s[RS1] shifted right arithmetically by s[RS2] [4:0]. -/
def execSra (core : Coord) (rd rs1 rs2 : RegNo) (s : State) : Host.Outcome State Fault Refusal :=
  .next (s.intOp core rd rs1 rs2 (fun a b => a.sshiftRight (b.toNat % 32)))

/-- `MUL`: s[RD] := the low 32 bits of the product. -/
def execMul (core : Coord) (rd rs1 rs2 : RegNo) (s : State) : Host.Outcome State Fault Refusal :=
  .next (s.intOp core rd rs1 rs2 (fun a b => a * b))

/-- `MULH`: s[RD] := the high 32 bits of the signed product. -/
def execMulh (core : Coord) (rd rs1 rs2 : RegNo) (s : State) : Host.Outcome State Fault Refusal :=
  .next (s.intOp core rd rs1 rs2 (fun a b => BitVec.ofInt 32 (a.toInt * b.toInt / 2 ^ 32)))

/-- `MULHU`: s[RD] := the high 32 bits of the unsigned product. -/
def execMulhu (core : Coord) (rd rs1 rs2 : RegNo) (s : State) : Host.Outcome State Fault Refusal :=
  .next (s.intOp core rd rs1 rs2 (fun a b => BitVec.ofNat 32 (a.toNat * b.toNat / 2 ^ 32)))

/-- `DIV`: s[RD] := the signed quotient, rounded toward zero (R215). -/
def execDiv (core : Coord) (rd rs1 rs2 : RegNo) (s : State) : Host.Outcome State Fault Refusal :=
  .next (s.intOp core rd rs1 rs2 divS)

/-- `DIVU`: s[RD] := the unsigned quotient (R215). -/
def execDivu (core : Coord) (rd rs1 rs2 : RegNo) (s : State) : Host.Outcome State Fault Refusal :=
  .next (s.intOp core rd rs1 rs2 divU)

/-- `REM`: s[RD] := the signed remainder (R215). -/
def execRem (core : Coord) (rd rs1 rs2 : RegNo) (s : State) : Host.Outcome State Fault Refusal :=
  .next (s.intOp core rd rs1 rs2 remS)

/-- `REMU`: s[RD] := the unsigned remainder (R215). -/
def execRemu (core : Coord) (rd rs1 rs2 : RegNo) (s : State) : Host.Outcome State Fault Refusal :=
  .next (s.intOp core rd rs1 rs2 remU)

/-- `MIN`: s[RD] := the signed minimum. -/
def execMin (core : Coord) (rd rs1 rs2 : RegNo) (s : State) : Host.Outcome State Fault Refusal :=
  .next (s.intOp core rd rs1 rs2 (fun a b => if a.slt b then a else b))

/-- `MAX`: s[RD] := the signed maximum. -/
def execMax (core : Coord) (rd rs1 rs2 : RegNo) (s : State) : Host.Outcome State Fault Refusal :=
  .next (s.intOp core rd rs1 rs2 (fun a b => if a.slt b then b else a))

/-- `MINU`: s[RD] := the unsigned minimum. -/
def execMinu (core : Coord) (rd rs1 rs2 : RegNo) (s : State) : Host.Outcome State Fault Refusal :=
  .next (s.intOp core rd rs1 rs2 (fun a b => if a.ult b then a else b))

/-- `MAXU`: s[RD] := the unsigned maximum. -/
def execMaxu (core : Coord) (rd rs1 rs2 : RegNo) (s : State) : Host.Outcome State Fault Refusal :=
  .next (s.intOp core rd rs1 rs2 (fun a b => if a.ult b then b else a))

/-- `ADDI`: s[RD] := s[RS1] + sext(IMM) (R216). -/
def execAddi (core : Coord) (rd rs1 : RegNo) (imm : W16) (s : State) : Host.Outcome State Fault Refusal :=
  .next (s.immOp core rd rs1 fun a => a + imm.signExtend 32)

/-- `ANDI`: s[RD] := s[RS1] and zext(IMM) (R216). -/
def execAndi (core : Coord) (rd rs1 : RegNo) (imm : W16) (s : State) : Host.Outcome State Fault Refusal :=
  .next (s.immOp core rd rs1 fun a => a &&& imm.zeroExtend 32)

/-- `ORI`: s[RD] := s[RS1] or zext(IMM) (R216). -/
def execOri (core : Coord) (rd rs1 : RegNo) (imm : W16) (s : State) : Host.Outcome State Fault Refusal :=
  .next (s.immOp core rd rs1 fun a => a ||| imm.zeroExtend 32)

/-- `XORI`: s[RD] := s[RS1] xor zext(IMM) (R216). -/
def execXori (core : Coord) (rd rs1 : RegNo) (imm : W16) (s : State) : Host.Outcome State Fault Refusal :=
  .next (s.immOp core rd rs1 fun a => a ^^^ imm.zeroExtend 32)

/-- `SLLI`: s[RD] := s[RS1] shifted left by the amount of IMM (R216). -/
def execSlli (core : Coord) (rd rs1 : RegNo) (sh : BitVec 5) (s : State) : Host.Outcome State Fault Refusal :=
  .next (s.immOp core rd rs1 fun a => a <<< sh.toNat)

/-- `SRLI`: s[RD] := s[RS1] shifted right by the amount of IMM (R216). -/
def execSrli (core : Coord) (rd rs1 : RegNo) (sh : BitVec 5) (s : State) : Host.Outcome State Fault Refusal :=
  .next (s.immOp core rd rs1 fun a => a >>> sh.toNat)

/-- `SRAI`: s[RD] := s[RS1] shifted right arithmetically by the amount of IMM (R216). -/
def execSrai (core : Coord) (rd rs1 : RegNo) (sh : BitVec 5) (s : State) : Host.Outcome State Fault Refusal :=
  .next (s.immOp core rd rs1 fun a => a.sshiftRight sh.toNat)

/-- `LUI`: s[RD] := IMM × 2^16 (R216). -/
def execLui (core : Coord) (rd : RegNo) (imm : W16) (s : State) : Host.Outcome State Fault Refusal :=
  .next (s.regInstr core fun c => c.setS rd.toNat (imm.zeroExtend 32 <<< 16))

/-- `AADD`: a[RD] := a[RS1] + sext(s[RS2]). -/
def execAadd (core : Coord) (rd rs1 : BitVec 4) (rs2 : RegNo) (s : State) : Host.Outcome State Fault Refusal :=
  .next (s.regInstr core fun c => c.setA rd.toNat (c.areg rs1.toNat + (c.sreg rs2.toNat).signExtend 64))

/-- `ASETLO`: a[RD] [31:0] := s[RS2]. -/
def execAsetlo (core : Coord) (rd : BitVec 4) (rs2 : RegNo) (s : State) : Host.Outcome State Fault Refusal :=
  .next (s.regInstr core fun c => c.setA rd.toNat ((c.areg rd.toNat).extractLsb' 32 32 ++ c.sreg rs2.toNat))

/-- `ASETHI`: a[RD] [63:32] := s[RS2]. -/
def execAsethi (core : Coord) (rd : BitVec 4) (rs2 : RegNo) (s : State) : Host.Outcome State Fault Refusal :=
  .next (s.regInstr core fun c => c.setA rd.toNat (c.sreg rs2.toNat ++ (c.areg rd.toNat).extractLsb' 0 32))

/-- `AGETLO`: s[RD] := a[RS1] [31:0]. -/
def execAgetlo (core : Coord) (rd : RegNo) (rs1 : BitVec 4) (s : State) : Host.Outcome State Fault Refusal :=
  .next (s.regInstr core fun c => c.setS rd.toNat ((c.areg rs1.toNat).extractLsb' 0 32))

/-- `AGETHI`: s[RD] := a[RS1] [63:32]. -/
def execAgethi (core : Coord) (rd : RegNo) (rs1 : BitVec 4) (s : State) : Host.Outcome State Fault Refusal :=
  .next (s.regInstr core fun c => c.setS rd.toNat ((c.areg rs1.toNat).extractLsb' 32 32))

/-- `AMOV`: a[RD] := a[RS1]. -/
def execAmov (core : Coord) (rd rs1 : BitVec 4) (s : State) : Host.Outcome State Fault Refusal :=
  .next (s.regInstr core fun c => c.setA rd.toNat (c.areg rs1.toNat))

/-- `AZX`: a[RD] := zext(s[RS2]). -/
def execAzx (core : Coord) (rd : BitVec 4) (rs2 : RegNo) (s : State) : Host.Outcome State Fault Refusal :=
  .next (s.regInstr core fun c => c.setA rd.toNat ((c.sreg rs2.toNat).zeroExtend 64))

/-- `AADDI`: a[RD] := a[RS1] + sext(IMM). -/
def execAaddi (core : Coord) (rd rs1 : BitVec 4) (imm : W16) (s : State) : Host.Outcome State Fault Refusal :=
  .next (s.regInstr core fun c => c.setA rd.toNat (c.areg rs1.toNat + imm.signExtend 64))

/-- The word of a CMP, which a reserved COND makes illegal. -/
def cmpWord (pd : BitVec 3) (rs1 rs2 : RegNo) (cond : BitVec 3) : Nat :=
  0x0A * 2 ^ 26 + 2 ^ 23 * pd.toNat + 2 ^ 16 * rs1.toNat + 2 ^ 11 * rs2.toNat + cond.toNat

/-- `CMP`: p[PD] := the comparison of s[RS1] with s[RS2]; a reserved COND is illegal (R212, R217). -/
def execCmp (core : Coord) (pd : BitVec 3) (rs1 rs2 : RegNo) (cond : BitVec 3) (s : State) : Host.Outcome State Fault Refusal :=
  .next (s.instr core fun n c s =>
    match cmpCond cond.toNat (c.sreg rs1.toNat) (c.sreg rs2.toNat) with
    | some b => (s.onCp n fun c => c.setP pd.toNat b).retire n
    | none => s.trap n .illegal (cmpWord pd rs1 rs2 cond))

/-- `CMPI`: p[PD] := the comparison of s[RS1] with sext(IMM) (R217). -/
def execCmpi (core : Coord) (pd : BitVec 3) (rs1 : RegNo) (cond : BitVec 2) (imm : W16) (s : State) : Host.Outcome State Fault Refusal :=
  .next (s.regInstr core fun c =>
    c.setP pd.toNat ((cmpCond cond.toNat (c.sreg rs1.toNat) (imm.signExtend 32)).getD false))

/-- `PAND`: p[PD] := p[PA] and p[PB] (R218). -/
def execPand (core : Coord) (pd pa pb : BitVec 3) (s : State) : Host.Outcome State Fault Refusal :=
  .next (s.regInstr core fun c =>
    let a := c.preg pa.toNat
    let b := c.preg pb.toNat
    c.setP pd.toNat (a && b))

/-- `POR`: p[PD] := p[PA] or p[PB] (R218). -/
def execPor (core : Coord) (pd pa pb : BitVec 3) (s : State) : Host.Outcome State Fault Refusal :=
  .next (s.regInstr core fun c =>
    let a := c.preg pa.toNat
    let b := c.preg pb.toNat
    c.setP pd.toNat (a || b))

/-- `PXOR`: p[PD] := p[PA] xor p[PB] (R218). -/
def execPxor (core : Coord) (pd pa pb : BitVec 3) (s : State) : Host.Outcome State Fault Refusal :=
  .next (s.regInstr core fun c =>
    let a := c.preg pa.toNat
    let b := c.preg pb.toNat
    c.setP pd.toNat (a != b))

/-- `PANDN`: p[PD] := p[PA] and not p[PB] (R218). -/
def execPandn (core : Coord) (pd pa pb : BitVec 3) (s : State) : Host.Outcome State Fault Refusal :=
  .next (s.regInstr core fun c =>
    let a := c.preg pa.toNat
    let b := c.preg pb.toNat
    c.setP pd.toNat (a && !b))

/-- `SEL`: s[RD] := s[RS1] when p[P] is 1, s[RS2] otherwise (R218). -/
def execSel (core : Coord) (rd rs1 rs2 : RegNo) (p : BitVec 3) (s : State) : Host.Outcome State Fault Refusal :=
  .next (s.regInstr core fun c => c.setS rd.toNat (if c.preg p.toNat then c.sreg rs1.toNat else c.sreg rs2.toNat))

/-! ### Branches (R219) -/

/-- A jump to an index, or a trap with PC_RANGE when it lies outside the program store; the width of a negative target's
tval is open (log entry 19). `link` is done only when the jump is taken. -/
def State.jump (s : State) (n : Nat) (t : Int) (link : Cp → Cp) : State :=
  if 0 ≤ t ∧ t ≤ 4095 then (s.onCp n link).retireTo n t.toNat
  else if t < 0 then s.drawn.trap n .pcRange s.freeValue.toNat
  else s.trap n .pcRange t.toNat

/-- `BR`: branches to pc + sext(OFF) when p[P] xor N is 1. -/
def execBr (core : Coord) (p : BitVec 3) (n : Bool) (off : BitVec 22) (s : State) : Host.Outcome State Fault Refusal :=
  .next (s.instr core fun k c s =>
    if c.preg p.toNat != n then s.jump k (c.pc.toNat + off.toInt) id else s.retire k)

/-- `JAL`: s[RD] := pc + 1, and a jump to pc + sext(OFF). -/
def execJal (core : Coord) (rd : RegNo) (off : BitVec 21) (s : State) : Host.Outcome State Fault Refusal :=
  .next (s.instr core fun k c s => s.jump k (c.pc.toNat + off.toInt) fun c =>
    c.setS rd.toNat (BitVec.ofNat 32 (c.pc.toNat + 1)))

/-- `JR`: a jump to s[RS1]. -/
def execJr (core : Coord) (rs1 : RegNo) (s : State) : Host.Outcome State Fault Refusal :=
  .next (s.instr core fun k c s => s.jump k (c.sreg rs1.toNat).toNat id)

/-! ### Loads and stores (R199, R220) -/

/-- The effective address (R199). -/
def Cp.address (c : Cp) (rs1 : BitVec 4) (imm : W16) : W64 := c.areg rs1.toNat + imm.signExtend 64

/-- Whether an address may be accessed with a width: the trap that it takes otherwise (R199). An address that is both out of range
and misaligned takes ALCOVE_RANGE: the manual does not say which of the two comes first (DESIGN CHOICE, log entry 111). -/
def addressTrap (ea : W64) (n : Nat) : Option TrapCause :=
  if 196608 < ea.toNat + n then some .alcoveRange else if ea.toNat % n ≠ 0 then some .misaligned else none

/-- What a control processor meets when it reads its alcove: errors are corrected; uncorrectable data is reported without
a trap (Table 9.6). -/
def State.cpRead (s : State) (n k len : Nat) : State :=
  let s := s.meetErrors k len
  match s.ueAt k len with
  | some e => s.memFault ⟨some n, coreHall n, s.holderOf n, 3⟩ Code.MEM_UE e false (s.holderOf n) (s.ueCtx e)
  | none => s

/-- A load of `len` bytes that `f` writes to a register. -/
def State.load (s : State) (core : Coord) (rs1 : BitVec 4) (imm : W16) (len : Nat) (f : Nat → Cp → Cp) : State :=
  s.instr core fun n c s =>
    let ea := c.address rs1 imm
    match addressTrap ea len with
    | some t => s.trap n t ea.toNat
    | none =>
      let k := alcoveBase n + ea.toNat
      let v := s.natAt k len
      ((s.cpRead n k len).onCp n (f v)).retire n

/-- A store of `len` bytes of a register value. -/
def State.store (s : State) (core : Coord) (rs1 : BitVec 4) (imm : W16) (len : Nat) (v : Cp → Nat) : State :=
  s.instr core fun n c s =>
    let ea := c.address rs1 imm
    match addressTrap ea len with
    | some t => s.trap n t ea.toNat
    | none =>
      let k := alcoveBase n + ea.toNat
      (s.storeFor ⟨some n, coreHall n, s.holderOf n, 3⟩ ((leBytes len (v c)).zipIdx.map fun e => (k + e.2, e.1))).retire n

/-- `LDB`: loads a byte, sign-extended, into s[RD]. -/
def execLdb (core : Coord) (rd : RegNo) (rs1 : BitVec 4) (imm : W16) (s : State) : Host.Outcome State Fault Refusal :=
  .next (s.load core rs1 imm 1 fun v c => c.setS rd.toNat ((BitVec.ofNat 8 v).signExtend 32))

/-- `LDBU`: loads a byte, zero-extended, into s[RD]. -/
def execLdbu (core : Coord) (rd : RegNo) (rs1 : BitVec 4) (imm : W16) (s : State) : Host.Outcome State Fault Refusal :=
  .next (s.load core rs1 imm 1 fun v c => c.setS rd.toNat (BitVec.ofNat 32 v))

/-- `LDH`: loads a half word, sign-extended, into s[RD]. -/
def execLdh (core : Coord) (rd : RegNo) (rs1 : BitVec 4) (imm : W16) (s : State) : Host.Outcome State Fault Refusal :=
  .next (s.load core rs1 imm 2 fun v c => c.setS rd.toNat ((BitVec.ofNat 16 v).signExtend 32))

/-- `LDHU`: loads a half word, zero-extended, into s[RD]. -/
def execLdhu (core : Coord) (rd : RegNo) (rs1 : BitVec 4) (imm : W16) (s : State) : Host.Outcome State Fault Refusal :=
  .next (s.load core rs1 imm 2 fun v c => c.setS rd.toNat (BitVec.ofNat 32 v))

/-- `LDW`: loads 32 bits, into s[RD]. -/
def execLdw (core : Coord) (rd : RegNo) (rs1 : BitVec 4) (imm : W16) (s : State) : Host.Outcome State Fault Refusal :=
  .next (s.load core rs1 imm 4 fun v c => c.setS rd.toNat (BitVec.ofNat 32 v))

/-- `LDA`: loads 64 bits into a[RD]. -/
def execLda (core : Coord) (rd rs1 : BitVec 4) (imm : W16) (s : State) : Host.Outcome State Fault Refusal :=
  .next (s.load core rs1 imm 8 fun v c => c.setA rd.toNat (BitVec.ofNat 64 v))

/-- `STB`: stores the low 8 bits of s[RD]. -/
def execStb (core : Coord) (rd : RegNo) (rs1 : BitVec 4) (imm : W16) (s : State) : Host.Outcome State Fault Refusal :=
  .next (s.store core rs1 imm 1 fun c => (c.sreg rd.toNat).toNat)

/-- `STH`: stores the low 16 bits of s[RD]. -/
def execSth (core : Coord) (rd : RegNo) (rs1 : BitVec 4) (imm : W16) (s : State) : Host.Outcome State Fault Refusal :=
  .next (s.store core rs1 imm 2 fun c => (c.sreg rd.toNat).toNat)

/-- `STW`: stores the low 32 bits of s[RD]. -/
def execStw (core : Coord) (rd : RegNo) (rs1 : BitVec 4) (imm : W16) (s : State) : Host.Outcome State Fault Refusal :=
  .next (s.store core rs1 imm 4 fun c => (c.sreg rd.toNat).toNat)

/-- `STA`: stores a[RD]. -/
def execSta (core : Coord) (rd rs1 : BitVec 4) (imm : W16) (s : State) : Host.Outcome State Fault Refusal :=
  .next (s.store core rs1 imm 8 fun c => (c.areg rd.toNat).toNat)

/-! ### Descriptors (R221, R222) -/

/-- `DCREATE`: reads an image of 64 bytes and validates it: d[DD] receives it, or loses its valid bit and the instruction
traps with DESC_CREATE. -/
def execDcreate (core : Coord) (dd : BitVec 6) (ab : BitVec 4) (imm : W16) (s : State) :
    Host.Outcome State Fault Refusal :=
  .next (s.instr core fun n c s =>
    let ea := c.address ab imm
    match addressTrap ea 64 with
    | some t => s.trap n t ea.toNat
    | none =>
      let k := alcoveBase n + ea.toNat
      let img := BitVec.ofNat 512 (s.natAt k 64)
      let s := s.cpRead n k 64
      match s.validateDesc n img with
      | none => (s.onCp n fun c => c.setD dd.toNat ⟨img, true⟩).retire n
      | some code =>
        (s.onCp n fun c => c.setD dd.toNat { c.dreg dd.toNat with valid := false }).trap n .descCreate code)

/-- `DCOPY`: d[DD] := d[DS] with its valid bit, which must be set. -/
def execDcopy (core : Coord) (dd ds : BitVec 6) (s : State) : Host.Outcome State Fault Refusal :=
  .next (s.instr core fun n c s =>
    if (c.dreg ds.toNat).valid then (s.onCp n fun c => c.setD dd.toNat (c.dreg ds.toNat)).retire n
    else s.trap n .descUnset ds.toNat)

/-- `DINV`: clears the valid bit of d[DD]. -/
def execDinv (core : Coord) (dd : BitVec 6) (s : State) : Host.Outcome State Fault Refusal :=
  .next (s.regInstr core fun c => c.setD dd.toNat { c.dreg dd.toNat with valid := false })

/-! ### Step tables (Tables 6.9 to 6.11) -/

/-- The binding of a queue of hall `h` for the coming frame (R224, R226): between the opening of a landing and step 9 on the hall, the
frame that this step 9 arms, with what was asked for before the snapshot; from step 9 to the tick the binding in force; during a
frame, with whatever has been asked for, since the snapshot that follows takes it up. -/
def State.comingBind (s : State) (h : Nat) (x : SeqQueue) : Option (Nat × Nat) :=
  let asked :=
    if s.fr.landing = .step2 ∨ (s.hall h).stage ≠ .done then x.pendBind.filter (·.1 < s.fr.snap)
    else if s.fr.ticked then x.pendBind
    else []
  match asked.getLast? with
  | some p => p.2
  | none => x.bind

/-- The slot that a queue runs: from the dispatch of its step 0 (R258). -/
def SeqQueue.running (x : SeqQueue) : Option Nat := if x.pos = 0 then none else x.run

/-- Whether a slot runs on a queue, and whether it is busy (R224). -/
def Seq.runs (q : Seq) (slot : Nat) : Bool := q.main.running == some slot || q.idle.running == some slot
def State.slotBusy (s : State) (n slot : Nat) : Bool :=
  let q := (s.core n).seq
  let named (x : SeqQueue) : Bool := (s.comingBind (coreHall n) x).any (·.1 == slot) || x.sel == some slot
  (q.slot slot).state == .loading || q.runs slot || named q.main || named q.idle

/-- `TLOAD`: the slot becomes LOADING and its table image is copied; an image that breaks R236 or does not fit the store
makes it FAILED at once (R236, R237, R688). -/
def execTload (core : Coord) (slot : BitVec 4) (ds : BitVec 6) (s : State) : Host.Outcome State Fault Refusal :=
  .next (s.instr core fun n c s =>
    let i := slot.toNat
    if s.slotBusy n i then s.trap n .tableState i
    else if ¬ (c.dreg ds.toNat).valid then s.trap n .descUnset ds.toNat
    else
      let img := (c.dreg ds.toNat).bits
      let d := Desc.ofBits img
      let q := (s.core n).seq
      let used := (q.slots.filter fun e => e.1 ≠ i).foldl (fun t e => t + e.2.size) 0
      let s' := s.onSeq n fun q => q.setSlot i { state := .loading, src := img, regs := c.d }
      if ¬ tableShapeOk d then (s'.loadFailed n i Code.TABLE_SHAPE).retire n
      else if 4096 < used + d.extent 0 / 4 then (s'.loadFailed n i Code.TABLE_SPACE).retire n
      else s'.retire n)

/-- `TGO`: the slot becomes the pending selection of the queue (R225). -/
def execTgo (core : Coord) (slot : BitVec 4) (q : Queue) (s : State) : Host.Outcome State Fault Refusal :=
  .next (s.instr core fun n _ s =>
    let st := ((s.core n).seq.slot slot.toNat).state
    if st = .empty ∨ st = .failed then s.trap n .tableState slot.toNat
    else (s.onSeq n fun x => x.onQueue q fun y => { y with sel := some slot.toNat }).retire n)

/-- `TSWITCH`: the slot is bound to the queue with an offset, or the queue is unbound, from the first landing whose snapshot
follows (R226). With U = 1 the slot and the offset are not looked at (log entry 20). -/
def execTswitch (core : Coord) (slot : BitVec 4) (q : Queue) (rs : RegNo) (u : Bool) (s : State) :
    Host.Outcome State Fault Refusal :=
  .next (s.instr core fun n c s =>
    let st := ((s.core n).seq.slot slot.toNat).state
    let off := (c.sreg rs.toNat).toNat
    if ¬ u ∧ (st = .empty ∨ st = .failed ∨ s.reg Reg.FTK_BUDGET ≤ off ∨ (q = .idle ∧ off ≠ 0)) then
      s.trap n .tableState slot.toNat
    else
      let b := if u then none else some (slot.toNat, off)
      let s' := s.onSeq n fun x => x.onQueue q fun y =>
        { y with pendBind := y.pendBind.filter (·.1 < s.fr.snap) ++ [(s.serial, b)] }
      ({ s' with serial := s'.serial + 1 } : State).retire n)

/-- `TWAIT`: blocks until the token counter is at least s[RS]; a condition that holds retires at once (R227). -/
def execTwait (core : Coord) (tc : BitVec 4) (rs : RegNo) (s : State) : Host.Outcome State Fault Refusal :=
  .next (s.instr core fun n c s =>
    let v := (c.sreg rs.toNat).toNat
    if v ≤ ((s.core n).seq.tokOf tc.toNat).toNat then s.retire n
    else s.onCp n fun c => { c with block := .twait tc.toNat v })

/-- A blocked instruction whose condition holds retires. -/
def State.unblock (s : State) (n : Nat) : State := (s.onCp n fun c => { c with block := .none }).retire n

/-- `TWAIT_RETIRE`: a blocked TWAIT retires once its counter has reached its value (R227). -/
def execTwaitRetire (core : Coord) (s : State) : Host.Outcome State Fault Refusal :=
  let n := coreNo core
  .next <|
    match (s.core n).cp.block with
    | .twait tc v => if v ≤ ((s.core n).seq.tokOf tc).toNat then s.unblock n else s
    | _ => s

/-- `TPATCH`: replaces the field FIELD of step s[RS] of the slot with the low bits of a[AV], within 8 cycles (R228,
R262). -/
def execTpatch (core : Coord) (slot : BitVec 4) (rs : RegNo) (av : BitVec 4) (field : BitVec 3) (s : State) :
    Host.Outcome State Fault Refusal :=
  .next (s.instr core fun n c s =>
    let i := slot.toNat
    let q := (s.core n).seq
    let t := q.slot i
    let idx := (c.sreg rs.toNat).toNat
    if t.state ≠ .ready ∨ q.runs i then s.trap n .tableState i
    else match t.steps[idx]? with
      | none => s.trap n .patchInvalid 0xFFFF
      | some st =>
        let cur := t.patches.foldl (fun v p => if p.step = idx then
            (match patchBits p.field v with | some (hi, lo) => setBits v hi lo p.value.toNat | none => v) else v) st.toNat
        match s.patchStep n field.toNat cur (c.areg av.toNat).toNat with
        | .error code => s.trap n .patchInvalid code
        | .ok _ =>
          (s.onSeq n fun q => q.setSlot i { t with
            patches := t.patches ++ [⟨idx, c.areg av.toNat, field.toNat, c.pc.toNat⟩] }).retire n)

/-! ### Waiting for landings and fences (R232, R233) -/

/-- `LANDWAIT`: blocks until step 9 of the next landing has completed on the hall. -/
def execLandwait (core : Coord) (s : RegNo) (st : State) : Host.Outcome State Fault Refusal :=
  .next (st.instr core fun n _ t => t.onCp n fun c => { c with block := .landwait s.toNat none })

/-- `LANDWAIT_RESUME`: step 9 has completed: s[S] receives the low bits of the number of the frame that it armed. -/
def execLandwaitResume (core : Coord) (s : State) : Host.Outcome State Fault Refusal :=
  let n := coreNo core
  .next <|
    match (s.core n).cp.block with
    | .landwait r (some f) => (s.onCp n fun c => c.setS r (BitVec.ofNat 32 f)).unblock n
    | _ => s

/-- Whether the conditions of a FENCE hold: stores are visible at once (log entry 21); the send buffer is empty; no TLOAD
or TPATCH is in progress (R232). -/
def State.fenceHolds (s : State) (n mask : Nat) : Bool :=
  let c := s.core n
  (!bit mask 1 || c.cp.sendBuf.isEmpty)
  && (!bit mask 2 || c.seq.slots.all fun e => e.2.state ≠ .loading && e.2.patches.isEmpty)

/-- `FENCE`: blocks until each condition that its mask names holds. -/
def execFence (core : Coord) (mask : BitVec 3) (s : State) : Host.Outcome State Fault Refusal :=
  .next (s.instr core fun n _ s =>
    if s.fenceHolds n mask.toNat then s.retire n else s.onCp n fun c => { c with block := .fence mask.toNat })

/-- `FENCE_RESUME`: a blocked FENCE whose conditions hold retires. -/
def execFenceResume (core : Coord) (s : State) : Host.Outcome State Fault Refusal :=
  let n := coreNo core
  .next <|
    match (s.core n).cp.block with
    | .fence m => if s.fenceHolds n m then s.unblock n else s
    | _ => s

/-! ### Control and status registers (R234) -/

/-- budget(k) of a gallery of rank k (R65): 1.75 GHz is 7/4 cycles per ns, and the slew margin 7/80,000 of the period. -/
def State.budget (s : State) (k : Nat) : Nat :=
  let p := s.reg Reg.FTK_PERIOD
  7 * (p - s.reg Reg.FTK_LANDING - 4 * k) / 4 - ceilDiv (7 * p) 80000

/-- The value of a CSR, none for a number that is not assigned (Tables 6.12, 6.13). -/
def State.csr (s : State) (n r : Nat) : Option Nat :=
  let c := s.core n
  let h := coreHall n
  let g := coreGallery n
  let q := c.seq
  let bind (x : SeqQueue) : Nat := match s.comingBind h x with | some (b, _) => 0x80 + b | none => 0
  let sel (x : SeqQueue) : Nat := match x.sel with | some b => 0x80 + b | none => 0
  let run (x : SeqQueue) : Nat := match x.running with | some b => 0x80 + b | none => 0
  let hall := s.hall h
  match r with
  | 0x000 => some (2 ^ 16 * s.deviceId + coreX n * 64 + coreY n)
  | 0x001 => some ((s.holderOf n).getD 0)
  | 0x002 => some (2 ^ 24 * posOf (coreX n) (coreY n) + 2 ^ 16 * g + h * 256 + h / 4)
  | 0x010 => some hall.armedFrame
  | 0x011 => some (if hall.started.getLsbD (g % 10) then min (s.cycles - mapGet 0 hall.galleryStart (g % 10)) 0xFFFFFFFF else 0)
  | 0x012 => some (s.budget (staggerRank g))
  | 0x013 => some ((s.holderOf n).elim 0 fun x => (s.ctx x).epoch)
  | 0x020 => some c.cp.srSeed.toNat
  | 0x021 => some (b2n q.ovf)
  | 0x022 => some (2 ^ 32 * (q.occupied % 2 ^ 32) + q.streamed % 2 ^ 32)
  | 0x030 => some c.cp.tvec.toNat
  | 0x031 => some c.cp.tepc.toNat
  | 0x032 => some c.cp.tcause.toNat
  | 0x033 => some c.cp.tval.toNat
  | 0x034 => some (2 * b2n c.cp.halted + b2n c.cp.inHandler)
  | 0x050 => some ((List.range 16).foldl (fun v i => v + (match (q.slot i).state with
      | .empty => 0 | .loading => 1 | .ready => 2 | .failed => 3) * 4 ^ i) 0)
  | 0x051 => some (2 ^ 40 * sel q.main + 2 ^ 32 * sel q.idle + 2 ^ 24 * bind q.main + 2 ^ 16 * bind q.idle
      + 2 ^ 8 * run q.main + run q.idle)
  | 0x052 => some q.tblErr
  | 0x060 => some ((List.range 8).foldl (fun v i => v + (mapGet {} c.cp.rx i).entries.length * 256 ^ i) 0)
  | 0x070 => some ((s.cycles - hall.resetAt) % 2 ^ 64)
  | 0x071 => some c.cp.instret.toNat
  | _ => if 0x040 ≤ r ∧ r < 0x050 then some (q.tokOf (r - 0x040)).toNat else none

/-- `CSRR`: a[A] := the CSR. -/
def execCsrr (core : Coord) (a : BitVec 4) (csr : BitVec 12) (s : State) : Host.Outcome State Fault Refusal :=
  .next (s.instr core fun n _ s =>
    match s.csr n csr.toNat with
    | some v => (s.onCp n fun c => c.setA a.toNat (BitVec.ofNat 64 v)).retire n
    | none => s.trap n .csrAccess csr.toNat)

/-- `CSRW`: the CSR := a[A]. sr_seed and tvec are the RW ones; reserved bits of tvec ignore the write. -/
def execCsrw (core : Coord) (a : BitVec 4) (csr : BitVec 12) (s : State) : Host.Outcome State Fault Refusal :=
  .next (s.instr core fun n _ s =>
    if csr = 0x020 then (s.onCp n fun c => { c with srSeed := c.areg a.toNat }).retire n
    else if csr = 0x030 then (s.onCp n fun c => { c with tvec := (c.areg a.toNat).truncate 13 }).retire n
    else s.trap n .csrAccess csr.toNat)

/-! ### Traps and halts (R206 to R213) -/

/-- `TRAP`: the software trap, which resumes at the instruction after it. -/
def execTrap (core : Coord) (code : W16) (s : State) : Host.Outcome State Fault Refusal :=
  .next (s.instr core fun n c s =>
    (s.onCp n fun c => { c with instret := c.instret + 1 }).trapAt n .software code.toNat (c.pc.toNat + 1))

/-- `TRET`: pc := tepc and IN_HANDLER := 0; outside a handler it is illegal. -/
def execTret (core : Coord) (s : State) : Host.Outcome State Fault Refusal :=
  .next (s.instr core fun n c s =>
    if c.inHandler then (s.onCp n fun c => { c with inHandler := false }).retireTo n c.tepc.toNat
    else s.trap n .illegal 0xF4000000)

/-- `HALT`: stops the control processor without a fault until the next kernel start (R211). -/
def execHalt (core : Coord) (s : State) : Host.Outcome State Fault Refusal :=
  .next (s.instr core fun n _ s => s.onCp n fun c =>
    { c with halted := true, haltedByHalt := true, instret := c.instret + 1 })

/-- Whether an instruction word is legal: its OP and FN are assigned, the fields marked reserved are 0, and so is bit 4 of a field
that names an a-register (R212, R213, Tables 6.5 to 6.8, 6.10). A field that its instruction does not use and that no table marks
reserved is ignored: DS of DINV, A of PROBE and of FENCE, A and QUEUE of LANDWAIT, CSR of FENCE, MASK of CSRR and CSRW. -/
def legalWord (w : Nat) : Bool :=
  let op := bits w 31 26
  let f (hi lo : Nat) := bits w hi lo
  let aRd := f 25 25 = 0
  let aRs1 := f 20 20 = 0
  match op with
  | 0x01 => f 10 0 ≤ 0x12
  | 0x02 | 0x03 | 0x04 | 0x05 => true
  | 0x06 => f 15 7 = 0 && f 6 5 ≠ 3
  | 0x07 => f 20 16 = 0
  | 0x08 => match f 10 0 with
    | 0 => aRd && aRs1
    | 1 | 2 | 6 => aRd && f 20 16 = 0
    | 3 | 4 => aRs1 && f 15 11 = 0
    | 5 => aRd && aRs1 && f 15 11 = 0
    | _ => false
  | 0x09 => aRd && aRs1
  | 0x0A => f 22 21 = 0 && f 10 3 = 0 && f 2 0 ≤ 5
  | 0x0B => true
  | 0x0C => f 16 3 = 0 && f 2 0 ≤ 3
  | 0x0D => f 10 3 = 0
  | 0x10 | 0x11 => true
  | 0x12 => f 25 21 = 0 && f 15 0 = 0
  | 0x14 | 0x15 | 0x16 | 0x17 | 0x18 | 0x1A | 0x1B | 0x1C => aRs1
  | 0x19 | 0x1D => aRd && aRs1
  | 0x20 => true
  | 0x21 => f 13 1 = 0
  | 0x24 => f 15 0 = 0
  | 0x25 => f 20 0 = 0
  | 0x26 => f 14 0 = 0
  | 0x27 => f 21 21 = 0 && f 15 0 = 0
  | 0x28 => f 21 21 = 0 && f 15 15 = 0 && f 7 0 = 0
  | 0x2C => aRs1 && f 15 0 = 0
  | 0x2D => aRs1 && f 15 3 = 0
  | 0x2E | 0x2F => f 15 3 = 0
  | 0x30 => f 8 3 = 0
  | 0x38 | 0x39 => aRd && f 8 3 = 0
  | 0x3C => f 25 16 = 0
  | 0x3D | 0x3E => f 25 0 = 0
  | _ => false

/-- `ILLEGAL`: a word that is not a legal instruction traps with the word in tval (R212, R213). A legal word raises no
such event. -/
def execIllegal (core : Coord) (word : W32) (s : State) : Host.Outcome State Fault Refusal :=
  .next (if legalWord word.toNat then s else s.instr core fun n _ s => s.trap n .illegal word.toNat)

end Sys2Proof.Machine
end

