-- ==== Sys2Proof/Machine/Messages.lean ====
section
/-! DEFINITION. Messages, credits, tiles, signals and layout epochs: SEND, RECV and PROBE, the MESH and SIGNAL steps, and what
each packet does where it arrives (10). -/
namespace Sys2Proof.Machine

/-! ### Destination words (R229) -/

def destWord (dev queue x y : Nat) : Nat := 2 ^ 16 * dev + 2 ^ 13 * queue + x * 64 + y
/-- The word of a core without its queue, which keys a grant record (R345). -/
def coreWord (dev : W16) (c : Coord) : Nat := destWord dev.toNat 0 c.x.toNat c.y.toNat
/-- The word that a reply came from, with a queue. -/
def fromWord (p : Packet) : Nat := destWord p.sdev.toNat p.queue.toNat p.src.x.toNat p.src.y.toNat

/-- The logical coordinate of a core number. -/
def coordOf (n : Nat) : Coord := ⟨BitVec.ofNat 7 (coreX n), BitVec.ofNat 6 (coreY n)⟩

/-- A packet of a core to a destination word, with the job and the epoch of its context (R335, R338, R355). -/
def State.packetTo (s : State) (n : Nat) (t : PacketType) (dest : Nat) : Packet :=
  let c := s.ctx ((s.holderOf n).getD 0)
  { type := t, ddev := BitVec.ofNat 16 (bits dest 31 16)
    dst := ⟨BitVec.ofNat 7 (bits dest 12 6), BitVec.ofNat 6 (bits dest 5 0)⟩
    sdev := BitVec.ofNat 16 s.deviceId, src := coordOf n, job := BitVec.ofNat 16 c.job
    epoch := BitVec.ofNat 16 c.epoch, frame := BitVec.ofNat 16 s.frame, queue := BitVec.ofNat 3 (bits dest 15 13) }

/-! ### The sending side (R346 to R350) -/

/-- The credits that a core holds for a destination. -/
def Cp.creditsFor (c : Cp) (dest : Nat) : Nat := ((c.cache.find? fun e => e.dest == dest).map (·.credits)).getD 0

/-- Credits returned to a queue in one CREDIT_RET (R347, R348). -/
def State.returnCredits (s : State) (n dest count : Nat) : State :=
  if count = 0 then s
  else (s.sendPacket { s.packetTo n .creditRet dest with count := BitVec.ofNat 3 count }).getD s

/-- Credits put into the cache of a core: the least recently used entry makes room (R347). -/
def State.cacheCredits (s : State) (n dest count : Nat) : State :=
  let c := (s.core n).cp
  let rest := c.cache.filter fun e => e.dest ≠ dest
  let full := rest.length = 8
  let out := if full then rest.getLast? else none
  let kept := if full then rest.dropLast else rest
  let s := s.onCp n fun c => { c with cache := ⟨dest, min 4 (c.creditsFor dest + count)⟩ :: kept }
  match out with
  | some e => s.returnCredits n e.dest e.credits
  | none => s

/-- What has no route is handled as refused: it is due again, and MSG_NO_ROUTE is recorded (R342). -/
def State.noRoute (s : State) (n : Nat) : State :=
  (s.onCp n fun c => { c with retryDue := true }).setFld Reg.GAR_PTP_STATUS 31 16 Code.MSG_NO_ROUTE

/-- A request for credits (R347). -/
def State.requestCredits (s : State) (n dest : Nat) : State :=
  match s.sendPacket (s.packetTo n .creditReq dest) with
  | some s => s.onCp n fun c => { c with creditReq := some dest, retryDue := false }
  | none => s.noRoute n

/-- A SEND with a destination: with a credit and a free send-buffer entry it injects its packet and retires; without a
credit it asks for some, one request at a time; with no route it waits as refused, its credit unspent; it is blocked until then
(R230, R342, R347, R350). -/
def State.trySend (s : State) (n dest : Nat) (payload : W64) : State :=
  let c := (s.core n).cp
  let k := c.creditsFor dest
  if 0 < k ∧ c.sendBuf.length < 8 then
    match s.sendPacket { s.packetTo n .msg dest with payload := payload } with
    | some s => (s.onCp n fun c =>
        { c with
          cache := ⟨dest, k - 1⟩ :: c.cache.filter (fun e => e.dest ≠ dest)
          sendBuf := c.sendBuf ++ [⟨dest, payload, c.pc.toNat⟩]
          block := .none }).retire n
    | none => if c.retryDue then s else s.noRoute n
  else if k = 0 ∧ c.creditReq.isNone ∧ ¬ c.retryDue then s.requestCredits n dest
  else s

/-- `SEND`: sends a[A] to the queue that s[S] names; a bad destination traps (R229, R230). -/
def execSend (core : Coord) (ss : RegNo) (a : BitVec 4) (s : State) : Host.Outcome State Fault Refusal :=
  .next (s.instr core fun n c s =>
    let dest := (c.sreg ss.toNat).toNat
    if s.destBad n (bits dest 31 16) (bits dest 12 6) (bits dest 5 0) then s.trap n .msgDest dest
    else
      (s.onCp n fun x => { x with block := .send dest (c.areg a.toNat) false }).trySend n dest (c.areg a.toNat))

/-- `SEND_RESUME`: a blocked SEND goes on once it holds a credit and a send-buffer entry. -/
def execSendResume (core : Coord) (s : State) : Host.Outcome State Fault Refusal :=
  let n := coreNo core
  .next <|
    match (s.core n).cp.block with
    | .send dest payload _ => if s.inStep (coreHall n) then s else s.trySend n dest payload
    | _ => s

/-- `CREDIT_REQ_RETRY`: 64 cycles after a refusal the waiting SEND asks again, or goes if it holds a credit (R342, R346). -/
def execCreditReqRetry (core : Coord) (s : State) : Host.Outcome State Fault Refusal :=
  let n := coreNo core
  let c := (s.core n).cp
  .next <|
    if ¬ c.retryDue then s
    else
      let s := s.onCp n fun c => { c with retryDue := false }
      match c.block with
      | .send dest payload _ => if s.inStep (coreHall n) then s else s.trySend n dest payload
      | _ => s

/-- `CREDIT_EXPIRY`: credits unused for 500 µs are discarded and returned (R348). -/
def execCreditExpiry (core : Coord) (dest : W32) (s : State) : Host.Outcome State Fault Refusal :=
  let n := coreNo core
  let k := (s.core n).cp.creditsFor dest.toNat
  .next <|
    if k = 0 then s
    else
      (s.onCp n fun c => { c with cache := c.cache.map fun e => if e.dest = dest.toNat then { e with credits := 0 } else e }).returnCredits
        n dest.toNat k

/-- What HAL_MSG_FAULT records (Table 10.10). -/
def State.recordMsg (s : State) (n queue slot step code peer : Nat) : State :=
  let h := coreHall n
  let v := 2 ^ 63 + 2 ^ 62 * queue + 2 ^ 58 * slot + 2 ^ 46 * step + 2 ^ 39 * coreX n + 2 ^ 33 * coreY n + code
  let s := s.setReg (Reg.HAL_MSG_FAULT h) v
  let s := s.setReg (Reg.HAL_MSG_FAULT_FRAME h) s.frame
  (s.count (Reg.HAL_MSG_FAULT_COUNT h) 1).setReg (Reg.HAL_MSG_FAULT_PEER h) peer

/-- `MSG_CREDIT_TIMEOUT`: a SEND that has waited 1 ms for a credit reports it once and goes on waiting (R353). -/
def execMsgCreditTimeout (core : Coord) (s : State) : Host.Outcome State Fault Refusal :=
  let n := coreNo core
  let c := (s.core n).cp
  .next <|
    match c.block with
    | .send dest payload false =>
      if c.creditsFor dest ≠ 0 then s
      else
        let s := s.onCp n fun c => { c with block := .send dest payload true }
        (s.recordMsg n 0 0 c.pc.toNat Code.MSG_CREDIT_TIMEOUT dest).raise
          { src := 0x19, hall := coreHall n, ctx := s.holderOf n, code := Code.MSG_CREDIT_TIMEOUT, x := coreX n
            y := coreY n }
    | _ => s

/-! ### The receiving side (R231, R345, R346, R349) -/

def Cp.rxq (c : Cp) (q : Nat) : RxQueue := mapGet {} c.rx q
def Cp.setRxq (c : Cp) (q : Nat) (x : RxQueue) : Cp := { c with rx := mapSet {} c.rx q x }

/-- A count taken from the grant records of a peer, the oldest first: the records and what was taken. -/
def takeGrants (peer : Nat) : List GrantRec → Nat → List GrantRec × Nat
  | [], _ => ([], 0)
  | g :: r, k =>
    if g.peer = peer ∧ 0 < k then
      let t := min k g.left
      let (r', t') := takeGrants peer r (k - t)
      (if g.left - t = 0 then r' else { g with left := g.left - t } :: r', t + t')
    else
      let (r', t') := takeGrants peer r k
      (g :: r', t')

/-- A MSG placed against its credit: the sender's record and RES lose 1, OCC gains 1 (R349). With no record left, an entry
is placed only where one is free. -/
def RxQueue.place (q : RxQueue) (peer : Nat) (payload : W64) : Option RxQueue :=
  let (gs, t) := takeGrants peer q.grants 1
  if t = 0 ∧ 16 ≤ q.entries.length + q.res then none
  else some { entries := q.entries ++ [(payload, peer)], res := q.res - t, grants := gs }

/-- What a queue grants to a request, and the queue after it (R346). -/
def RxQueue.grant (q : RxQueue) (peer now : Nat) : Nat × RxQueue :=
  let g := min 4 (16 - q.entries.length - q.res)
  if g = 0 then (0, q) else (g, { q with res := q.res + g, grants := q.grants ++ [⟨peer, g, now⟩] })

/-- A CREDIT_RET: its count leaves the sender's record and RES (R349). -/
def RxQueue.giveBack (q : RxQueue) (peer k : Nat) : RxQueue :=
  let (gs, t) := takeGrants peer q.grants k
  { q with res := q.res - t, grants := gs }

/-- The oldest grant record removed (R348). -/
def RxQueue.expire (q : RxQueue) : RxQueue :=
  match q.grants with
  | g :: r => { q with res := q.res - g.left, grants := r }
  | [] => q

/-- The control processor that serves a receive queue: the core's, or the saved record of a PREEMPTED context (R351). -/
def State.rxCp (s : State) (n : Nat) : Option Nat → Cp
  | none => (s.core n).cp
  | some c => ((mapGet {} (s.ctx c).saved n).record).getD {}
def State.setRxCp (s : State) (n : Nat) (saved : Option Nat) (cp : Cp) : State :=
  match saved with
  | none => s.onCp n fun _ => cp
  | some c => s.onCtx c fun x => { x with saved := mapSet {} x.saved n { mapGet {} x.saved n with record := some cp } }

/-- The place of a packet as a receive queue: the core's own, a saved one, or none. -/
def State.rxPlace (s : State) (p : Packet) : Option (Option Nat) :=
  match s.placeOf (coreHall (coreNo p.dst)) p.job with
  | .held _ => some none
  | .saved c => some (some c)
  | .absent => none

/-- `MSG`: the message takes its place against a credit, and is acknowledged; for an absent job it is dropped and counted
(R349, R351, Table 10.4). -/
def execMsg (port : Option PortId) (p : Packet) (s : State) : Host.Outcome State Fault Refusal :=
  .next (s.arrive port p .msg fun s =>
    let n := coreNo p.dst
    match s.rxPlace p with
    | none => s.count (Reg.HAL_MSG_RX_DROPS (coreHall n)) 1
    | some sv =>
      let cp := s.rxCp n sv
      match (cp.rxq p.queue.toNat).place (coreWord p.sdev p.src) p.payload with
      | none => s
      | some q => (s.setRxCp n sv (cp.setRxq p.queue.toNat q)).post (p.reply .ack s.frame))

/-- `CREDIT_REQ`: the queue answers with up to 4 credits (R346). -/
def execCreditReq (port : Option PortId) (p : Packet) (s : State) : Host.Outcome State Fault Refusal :=
  .next (s.arrive port p .creditReq fun s =>
    let n := coreNo p.dst
    match s.rxPlace p with
    | none => s.absentReply p
    | some sv =>
      let cp := s.rxCp n sv
      let (g, q) := (cp.rxq p.queue.toNat).grant (coreWord p.sdev p.src) s.cycles
      (s.setRxCp n sv (cp.setRxq p.queue.toNat q)).post
        { p.reply .creditGrant s.frame with count := BitVec.ofNat 3 g })

/-- `CREDIT_RET`: returned credits leave the grant record and RES (R349). -/
def execCreditRet (port : Option PortId) (p : Packet) (s : State) : Host.Outcome State Fault Refusal :=
  .next (s.arrive port p .creditRet fun s =>
    let n := coreNo p.dst
    match s.rxPlace p with
    | none => s
    | some sv =>
      let cp := s.rxCp n sv
      s.setRxCp n sv (cp.setRxq p.queue.toNat
        ((cp.rxq p.queue.toNat).giveBack (coreWord p.sdev p.src) p.count.toNat)))

/-- `GRANT_RECORD_EXPIRY`: the oldest grant record of a queue is removed, on a core or in the saved queues of a PREEMPTED
context (R348, R351). -/
def execGrantRecordExpiry (core : Coord) (queue : BitVec 3) (saved : Option CtxId) (s : State) :
    Host.Outcome State Fault Refusal :=
  let n := coreNo core
  let sv := saved.map (·.toNat)
  let cp := s.rxCp n sv
  let ok : Bool := match sv with | none => true | some c => (mapGet {} (s.ctx c).saved n).record.isSome
  .next <|
    if ok ∧ (cp.rxq queue.toNat).grants ≠ [] then s.setRxCp n sv (cp.setRxq queue.toNat (cp.rxq queue.toNat).expire)
    else s

/-- Whether a reply reaches the core that asked: its context still holds the hall. -/
def State.replyHere (s : State) (p : Packet) : Bool :=
  match s.placeOf (coreHall (coreNo p.dst)) p.job with | .held _ => true | _ => false

/-- Whether a core drains for a spill (R203). -/
def State.draining (s : State) (n : Nat) : Bool := (s.hall (coreHall n)).stage == .handover

/-- `CREDIT_GRANT`: the credits enter the cache, or go back in the drain of a spill; a grant of none is counted, and the request is due
again (R346, R347, R352). -/
def execCreditGrant (port : Option PortId) (p : Packet) (s : State) : Host.Outcome State Fault Refusal :=
  .next (s.arrive port p .creditGrant fun s =>
    let n := coreNo p.dst
    if ¬ s.replyHere p then s
    else
      let s := s.onCp n fun c => if c.creditReq = some (fromWord p) then { c with creditReq := none } else c
      if s.draining n then s.returnCredits n (fromWord p) p.count.toNat
      else if p.count = 0 then
        (s.onCp n fun c => { c with retryDue := true }).count (Reg.HAL_CREDIT_WAITS (coreHall n)) 1
      else s.cacheCredits n (fromWord p) p.count.toNat)

/-- `RECV`: the oldest entry of a receive queue leaves it; with none, it blocks (R231, R349). -/
def State.tryRecv (s : State) (n sd a queue : Nat) : State :=
  let c := (s.core n).cp
  let q := c.rxq queue
  match q.entries with
  | [] => s
  | (payload, peer) :: rest =>
    (s.onCp n fun c =>
      let c := c.setRxq queue { q with entries := rest }
      let c := (c.setA a payload).setS sd (BitVec.ofNat 32 (peer + 2 ^ 13 * queue))
      { c with block := .none }).retire n

/-- `RECV`: receives from a queue, blocking until it holds an entry (R231). -/
def execRecv (core : Coord) (sd : RegNo) (a : BitVec 4) (queue : BitVec 3) (s : State) :
    Host.Outcome State Fault Refusal :=
  .next (s.instr core fun n _ s =>
    (s.onCp n fun c => { c with block := .recv sd.toNat a.toNat queue.toNat }).tryRecv n sd.toNat a.toNat queue.toNat)

/-- `RECV_RESUME`: a blocked RECV completes once an entry is present. -/
def execRecvResume (core : Coord) (s : State) : Host.Outcome State Fault Refusal :=
  let n := coreNo core
  .next <|
    match (s.core n).cp.block with
    | .recv sd a q => s.tryRecv n sd a q
    | _ => s

/-- `PROBE`: s[S] := the number of entries in a queue (R231). -/
def execProbe (core : Coord) (sd : RegNo) (queue : BitVec 3) (s : State) : Host.Outcome State Fault Refusal :=
  .next (s.regInstr core fun c => c.setS sd.toNat (BitVec.ofNat 32 (c.rxq queue.toNat).entries.length))

/-! ### Tiles and signals that are sent (R252, R354, R355) -/

/-- The next sequence number of a core's tiles and signals; 0 stands for the ACK of a MSG. -/
def nextTile (t : Nat) : Nat := t % (2 ^ 32 - 1) + 1

/-- The header of a packet of a MESH or SIGNAL step, under the epoch that the step sampled (R355). -/
def State.stepPacket (s : State) (n : Nat) (t : PacketType) (st epoch tile : Nat) : Packet :=
  { s.packetTo n t (destWord (stDevice st) 0 (stX st) (stY st)) with
    epoch := BitVec.ofNat 16 epoch, rtc := BitVec.ofNat 4 (stRtc st), tile := BitVec.ofNat 32 tile }

/-- The tile of an iteration: its elements in linear order, dimension 0 fastest, packed as in Table 3.8 (R336, R354). -/
def State.tilePacket (s : State) (n : Nat) (r : Run) (tile : Nat) : Packet :=
  let d := r.desc 0
  let exts := [d.opExt 0, d.opExt 1]
  let walk := d.walk 2 r.ix
  let b := d.bitsPer
  let raw := ((coords exts).map fun c => s.rawAt n d (d.permuted (fullCoord walk c))).zipIdx.foldl
    (fun v e => v + e.1 * 2 ^ (b * e.2)) 0
  let len := ceilDiv (d.opExt 0 * d.opExt 1 * b) 8
  { s.stepPacket n (if stOp r.st = 1 then .put else .putAdd) r.st r.epoch tile with
    dd := BitVec.ofNat 6 (stReg r.st 1), format := BitVec.ofNat 5 d.format, ext0 := BitVec.ofNat 32 (d.opExt 0)
    ext1 := BitVec.ofNat 32 (d.opExt 1), bytes := BitVec.ofNat 32 len, data := leBytes len raw }

/-- A MESH or SIGNAL step abandoned with a code: recorded, its queue stopped, and MSG_ABANDONED raised (R362). -/
def State.abandonMesh (s : State) (n : Nat) (e : Entry) (code : Nat) : State :=
  let st := e.step.toNat
  let s := s.recordMsg n (queueCode e.queue) e.slot e.idx code (destWord (stDevice st) 0 (stX st) (stY st))
  (s.stopQueue n e.queue).raise
    { src := 0x18, hall := coreHall n, ctx := s.holderOf n, code := code, x := coreX n, y := coreY n }

/-- The start of a MESH iteration: its source is read and its tile sent. Uncorrectable data and a missing route abandon the
step (R342, R354). -/
def State.meshIter (s : State) (n : Nat) (r : Run) : State × Option Run :=
  let d := r.desc 0
  let walk := d.walk 2 r.ix
  let cs := (coords [d.opExt 0, d.opExt 1]).map fun c => d.permuted (fullCoord walk c)
  let who : Who := ⟨some n, coreHall n, s.holderOf n, 0⟩
  let tile := nextTile (s.core n).seq.tileNext
  let (ue, s) := s.readErrors who (cs.flatMap fun c => d.elemRange n c)
  if ue ≠ [] then (s.abandonMesh n r.entry Code.MEM_UE, none)
  else match s.sendPacket (s.tilePacket n r tile) with
    | none => (s.abandonMesh n r.entry Code.MSG_NO_ROUTE, none)
    | some s => (s.onSeq n fun q => { q with tileNext := tile }, some { r with tile := tile, retry := false })

/-- `MESH_PUT`: a PUT iteration sends its tile (R354 to R357). -/
def execMeshPut (core : Coord) (q : Queue) (s : State) : Host.Outcome State Fault Refusal :=
  .next (s.startIter (coreNo core) .mesh q 1 fun s r => s.meshIter (coreNo core) r)

/-- `MESH_PUT_ADD`: a PUT_ADD iteration sends its tile (R354, R355, R358). -/
def execMeshPutAdd (core : Coord) (q : Queue) (s : State) : Host.Outcome State Fault Refusal :=
  .next (s.startIter (coreNo core) .mesh q 2 fun s r => s.meshIter (coreNo core) r)

/-- `SYNC_SIGNAL`: the SYNC SIGNAL step at the front of a queue, once its wait holds, sends its signal; dispatch goes on
(R245, R252, R255). -/
def execSyncSignal (core : Coord) (q : Queue) (s : State) : Host.Outcome State Fault Refusal :=
  let n := coreNo core
  let sq := (s.core n).seq
  .next <|
    match sq.front q with
    | some (slot, st) =>
      if ¬ stIsSignal st ∨ ¬ sq.waitHolds st ∨ sq.outranked (syncRank q) st then s
      else
        let w := sq.queue q
        let e : Entry := ⟨q, slot, w.pos, BitVec.ofNat 128 st, w.loopIx 0, w.loopIx 1, w.loopIx 2⟩
        match s.issueCheck n st with
        | some c => s.refuseStep n e c
        | none =>
          let r := s.sample n e
          let tile := nextTile sq.tileNext
          let s := s.onSeq n fun x => (x.consume st).advance q
          match s.sendPacket (s.stepPacket n .signal st r.epoch tile) with
          | none => s.abandonMesh n e Code.MSG_NO_ROUTE
          | some s => (s.onSeq n fun x =>
              { x with tileNext := tile, signals := x.signals ++ [⟨tile, e, r.epoch, false⟩], progress := true }).settle n
    | none => s

/-! ### Tiles and signals that arrive (R356 to R361, R365) -/

/-- How an epoch compares with the current one (R365): the packet is accepted, ahead, or stale. -/
inductive EpochCheck where
  | accept | ahead | stale
deriving DecidableEq, Repr

def epochCheck (epoch cur : Nat) : EpochCheck :=
  let d := (epoch + 2 ^ 16 - cur % 2 ^ 16) % 2 ^ 16
  if d = 0 then .accept else if d ≤ 0x7FFF then .ahead else .stale

/-- Checks 2 to 5 of Table 10.5 on the receiving descriptor. -/
def rxDescCheck (n : Nat) (p : Packet) (d : Option Desc) : Option Nat :=
  match d with
  | none => some Code.MSG_RX_DESC
  | some d =>
    let add := p.type = .putAdd
    let f := p.format.toNat
    if ¬ bit d.access 1 ∨ d.transform ≠ 0 ∨ ¬ localTo n d then some Code.MSG_RX_DESC
    else if (if add then d.format ≠ 0 ∨ 3 < f else f ≠ d.format) then some Code.MSG_RX_SHAPE
    else if d.extent 0 < (if add then 2 else 1) * p.ext0.toNat ∨ d.extent 1 < p.ext1.toNat then some Code.MSG_RX_SHAPE
    else none

/-- The element of a tile at a linear index, `b` bits wide. -/
def tileElem (data b i : Nat) : Nat := (data / 2 ^ (b * i)) % 2 ^ b

/-- What a PUT writes (R357). -/
def State.putTile (s : State) (n : Nat) (p : Packet) (d : Desc) : List (Nat × Byte) :=
  let exts := [p.ext0.toNat, p.ext1.toNat]
  let data := leNat p.data
  (coords exts).foldl (fun ws c =>
    s.putElem ws n d (fullCoord (List.replicate 6 0) c) (tileElem data d.bitsPer (linear exts c))) []

/-- A tile element merged into its pair by the rule of R167, with s the element and c = +0 (R358). -/
def mergePair (ws we x : Nat) : Nat × Nat :=
  let a : Acc := { s := x, ws := ws, we := we, first := false }
  (a.merge.ws, a.merge.we)

/-- What a PUT_ADD writes: the sum of position (i, j) at coordinate (2j, i) and its error beside it (R358). -/
def State.addTile (s : State) (n : Nat) (p : Packet) (d : Desc) : List (Nat × Byte) :=
  let exts := [p.ext0.toNat, p.ext1.toNat]
  let data := leNat p.data
  let f := p.format.toNat
  let fmt := (plainFloat f).getD fp32
  (coords exts).foldl (fun ws c =>
    let at_ (k : Nat) : List Nat := fullCoord (List.replicate 6 0) [2 * c.getD 0 0 + k, c.getD 1 0]
    let x := rne32 (fmt.decode (tileElem data ((fmtBits f).getD 8) (linear exts c)))
    let (w, e) := mergePair (s.rawAt n d (at_ 0)) (s.rawAt n d (at_ 1)) x
    s.putElem (s.putElem ws n d (at_ 0) w) n d (at_ 1) e) []

/-- The release of a tile or signal at its receiver, and the ACK that follows (R255, R361). -/
def State.rxRelease (s : State) (n : Nat) (p : Packet) : State :=
  ((s.onSeq n fun q => q.release p.rtc.toNat).settle n).post (p.reply .ack s.frame)

/-- A tile or signal at the core of the context that holds its hall: the epoch check, then `k`; elsewhere the peer is absent
(Table 10.4, Table 10.5). -/
def State.rxTile (s : State) (p : Packet) (k : State → Nat → State) : State :=
  let n := coreNo p.dst
  let h := coreHall n
  match s.placeOf h p.job with
  | .held c =>
    match epochCheck p.epoch.toNat (s.ctx c).epoch with
    | .ahead => (s.count (Reg.HAL_EPOCH_AHEAD h) 1).nackFor p Code.EPOCH_AHEAD
    | .stale => (s.count (Reg.HAL_EPOCH_STALE h) 1).nackFor p Code.EPOCH_STALE
    | .accept => k s n
  | _ => s.absentReply p

/-- `PUT`: an arriving tile is checked and written into the receiving descriptor; it releases and is acknowledged (R356,
R357, R361). -/
def execPut (port : Option PortId) (p : Packet) (s : State) : Host.Outcome State Fault Refusal :=
  .next (s.arrive port p .put fun s => s.rxTile p fun s n =>
    let d := s.descOf n p.dd.toNat
    match rxDescCheck n p d, d with
    | none, some d =>
      let who : Who := ⟨some n, coreHall n, s.holderOf n, 2⟩
      (s.storeFor who (s.putTile n p d)).rxRelease n p
    | some c, _ => s.nackFor p c
    | none, none => s)

/-- `PUT_ADD`: an arriving tile is added into the pair buffer of the receiving descriptor (R356, R358, R359). Uncorrectable
pairs abandon it (Table 9.6). -/
def execPutAdd (port : Option PortId) (p : Packet) (s : State) : Host.Outcome State Fault Refusal :=
  .next (s.arrive port p .putAdd fun s => s.rxTile p fun s n =>
    let d := s.descOf n p.dd.toNat
    match rxDescCheck n p d, d with
    | none, some d =>
      let who : Who := ⟨some n, coreHall n, s.holderOf n, 2⟩
      let cs := (coords [2 * p.ext0.toNat, p.ext1.toNat]).map (fullCoord (List.replicate 6 0))
      match s.readErrors who (cs.flatMap fun c => d.elemRange n c) with
      | ([], s) => (s.storeFor who (s.addTile n p d)).rxRelease n p
      | (_, s) => s.nackFor p Code.MEM_UE
    | some c, _ => s.nackFor p c
    | none, none => s)

/-- `SIGNAL`: an arriving signal of the current epoch releases its counter and is acknowledged (R255, R356). -/
def execSignal (port : Option PortId) (p : Packet) (s : State) : Host.Outcome State Fault Refusal :=
  .next (s.arrive port p .signal fun s => s.rxTile p fun s n => s.rxRelease n p)

/-! ### Replies (R349, R361, R362, R532, R533) -/

/-- The step of the mesh port with a tile number in progress, and the signal of one. -/
def Seq.meshWith (q : Seq) (tile : Nat) : Option Run := q.mesh.running.filter fun r => r.tile == tile
def Seq.signalWith (q : Seq) (tile : Nat) : Option SignalOut := q.signals.find? fun g => g.tile == tile

/-- `ACK`: the message leaves the send buffer, or the iteration or signal completes and releases (R255, R350, R361). -/
def execAck (port : Option PortId) (p : Packet) (s : State) : Host.Outcome State Fault Refusal :=
  .next (s.arrive port p .ack fun s =>
    let n := coreNo p.dst
    let q := (s.core n).seq
    if ¬ s.replyHere p then s
    else if p.tile = 0 then
      s.onCp n fun c => match c.sendBuf.find? fun e => e.dest == (fromWord p) with
        | some e => { c with sendBuf := c.sendBuf.erase e }
        | none => c
    else match q.meshWith p.tile.toNat with
      | some r => (s.finishIter n .mesh ⟨some n, coreHall n, s.holderOf n, 0⟩ r).settle n
      | none => match q.signalWith p.tile.toNat with
        | some g => (s.onSeq n fun q =>
            let q : Seq := { q with signals := q.signals.erase g, progress := true }
            let st := g.entry.step.toNat
            if stRelEn st then q.release (stRelTc st) else q).settle n
        | none => s)

/-- A message that is lost: its send-buffer entry is free, and the loss is recorded and raised (R532, R533). -/
def State.msgLost (s : State) (n : Nat) (e : SendEntry) (code : Nat) : State :=
  let s := s.onCp n fun c => { c with sendBuf := c.sendBuf.erase e }
  (s.recordMsg n 0 0 e.pc code e.dest).raise
    { src := 0x1A, hall := coreHall n, ctx := s.holderOf n, code := code, x := coreX n, y := coreY n }

/-- A NACK at the core that sent a tile or a signal: EPOCH_AHEAD has it sent again, any other code abandons its step
(R362, R365). -/
def State.tileNack (s : State) (n tile code : Nat) : State :=
  let q := (s.core n).seq
  match q.meshWith tile with
  | some r =>
    if code = Code.EPOCH_AHEAD then
      s.onSeq n fun q => q.setUnit .mesh (q.mesh.setOf r.entry.queue (some { r with retry := true }))
    else
      ((s.onSeq n fun q => q.setUnit .mesh (q.mesh.setOf r.entry.queue none)).abandonMesh n r.entry code).settle n
  | none => match q.signalWith tile with
    | some g =>
      if code = Code.EPOCH_AHEAD then
        s.onSeq n fun q => { q with signals := q.signals.map fun x => if x = g then { x with retry := true } else x }
      else ((s.onSeq n fun q => { q with signals := q.signals.erase g }).abandonMesh n g.entry code).settle n
    | none => s

/-- A NACK at the core that it answers: for a tile or signal its step is abandoned or it is sent again; for a message, the
message is lost; for a credit request, the request is refused (R362, R365, R532). -/
def State.coreNack (s : State) (p : Packet) : State :=
  let n := coreNo p.dst
  let peer := coreWord p.sdev p.src
  let same (d : Nat) : Bool := setBits d 15 13 0 == peer
  if ¬ s.replyHere p then s
  else if p.tile ≠ 0 then s.tileNack n p.tile.toNat p.code.toNat
  else
    let c := (s.core n).cp
    match c.sendBuf.find? fun e => same e.dest with
    | some e => s.msgLost n e p.code.toNat
    | none =>
      if c.creditReq.any same then s.onCp n fun c => { c with creditReq := none, retryDue := true } else s

/-- `EPOCH_AHEAD_RETRY`: 256 cycles after the NACK, the whole tile or the signal is sent again (R365). -/
def execEpochAheadRetry (core : Coord) (tile : W32) (s : State) : Host.Outcome State Fault Refusal :=
  let n := coreNo core
  let q := (s.core n).seq
  .next <|
    match q.meshWith tile.toNat with
    | some r =>
      if ¬ r.retry then s
      else match s.sendPacket (s.tilePacket n r r.tile) with
        | some s => s.onSeq n fun q => q.setUnit .mesh (q.mesh.setOf r.entry.queue (some { r with retry := false }))
        | none => s.tileNack n r.tile Code.MSG_NO_ROUTE
    | none => match q.signalWith tile.toNat with
      | some g =>
        if ¬ g.retry then s
        else match s.sendPacket (s.stepPacket n .signal g.entry.step.toNat g.epoch g.tile) with
          | some s => s.onSeq n fun q =>
              { q with signals := q.signals.map fun x => if x = g then { x with retry := false } else x }
          | none => s.tileNack n g.tile Code.MSG_NO_ROUTE
      | none => s

/-- `LINK_RSP_TIMEOUT`: an iteration, a signal or, with tile 0, the oldest message without an ACK after 2 ms is handled as
if a NACK had arrived (R533). -/
def execLinkRspTimeout (core : Coord) (tile : W32) (s : State) : Host.Outcome State Fault Refusal :=
  let n := coreNo core
  .next <|
    if tile ≠ 0 then s.tileNack n tile.toNat Code.LINK_RSP_TIMEOUT
    else match (s.core n).cp.sendBuf with
      | e :: _ => s.msgLost n e Code.LINK_RSP_TIMEOUT
      | [] => s

/-! ### The mesh and the balustrades (R363, R590) -/

/-- `MESH_DEADLOCK`: a flit that has not advanced is reported for the hall of its router (R363). -/
def execMeshDeadlock (hall : HallId) (s : State) : Host.Outcome State Fault Refusal :=
  .next (s.raise { src := 0x1F, hall := hall.toNat, code := Code.MESH_DEADLOCK })

/-- `QUARANTINE_DROP`: what a slot that does not serve emits is discarded at its balustrade, counted, and reported at most
once a second (R590). -/
def execQuarantineDrop (gallery : BitVec 8) (slot : BitVec 5) (s : State) : Host.Outcome State Fault Refusal :=
  let h := gallery.toNat / 10
  let j := gallery.toNat % 10
  let t := slot.toNat
  .next <|
    if 160 ≤ gallery.toNat ∨ 27 ≤ t ∨ (s.hall h).slotState j t = 0 then s
    else
      let s := s.count (Reg.HAL_QUARANTINE_DROPS h) 1
      let s := s.setReg (Reg.HAL_QDROP_LAST h) (2 ^ 31 + j * 32 + t)
      let k := 27 * j + t
      let quiet := (s.hall h).dropTimes.any fun e => e.1 == k && s.monoNs < e.2 + 1000000000
      if quiet then s
      else
        (s.onHall h fun x => { x with dropTimes := x.dropTimes.filter (fun e => e.1 ≠ k) ++ [(k, s.monoNs)] }).raise
          { src := 0x1B, hall := h, code := Code.QUARANTINE_DROP }

end Sys2Proof.Machine
end

