-- ==== Sys2Proof/Machine/Landing.lean ====
section
/-! DEFINITION. The landing: its opening and steps 1 to 6, the handover of halls, admissions, and steps 8 and 9 (02 R64 to R79,
04 R149, 05 R180, 10 R367 and R368, 12 R414 to R420, 13 R433 to R441). -/
namespace Sys2Proof.Machine

/-- The cores of a hall that are not in their reset state, in ascending order of (y, x). -/
def State.coresOf (s : State) (h : Nat) : List (Nat × Core) := s.cores.filter fun e => coreHall e.1 == h

/-- The word that names `n` cores with the lowest of them in (y, x) order (Tables 2.8 and 5.9). -/
def coresWord (n first : Nat) : Nat := 2 ^ 31 + 2 ^ 13 * (n % 256) + coreX first * 64 + coreY first

/-- Whether a hall still works on an earlier landing. -/
def Hall.busy (x : Hall) : Bool := x.stage != .done

/-! ### Step 1: frame-end marks (R72 to R78) -/

/-- A hall with overrunning cores: the overrun is recorded, in a late-start frame as such (R72, R78); a run of frames without
progress is counted and may be a HANG (R73, R74); under STRICT and in a replay the sequencers stop and recovery is due (R77,
R580); otherwise the hall is late (R75). Both codes are recorded for the hall: that FTK_STATUS.LAST_CODE stays as it is, is the
model's choice (DESIGN CHOICE, log entry 106). -/
def State.overrun (s : State) (h : Nat) (behind : List (Nat × Core)) (first : Nat) : State :=
  let x := s.hall h
  let lateStart := x.lateStart || x.busy || s.power.brake
  let old := s.fld (Reg.HAL_NOPROGRESS h) 3 0
  let stuck := behind.any fun e => !e.2.seq.progress
  let s := s.setReg (Reg.HAL_OVERRUN_INFO h) (coresWord behind.length first + 2 ^ 30 * b2n lateStart)
  let s := s.setReg (Reg.HAL_OVERRUN_FRAME h) s.frame
  if lateStart then
    ((s.count (Reg.HAL_LATE_COUNT h) 1).setReg (Reg.HAL_NOPROGRESS h) (if stuck then old else 0)).onHall h fun x => { x with late := true }
  else
    let s := s.count (Reg.HAL_OVERRUN_COUNT h) 1
    let policy := s.reg (Reg.HAL_FRAME_POLICY h)
    let count := if stuck then min (old + 1) 15 else 0
    let s := s.setReg (Reg.HAL_NOPROGRESS h) count
    let s := if stuck ∧ old = 0 then s.onHall h fun x => { x with noProgressFirst := s.frame } else s
    let s :=
      if stuck ∧ bits policy 3 0 ≤ count then
        (s.onHall h fun x => { x with late := true }).raiseAt { src := 0x1D, hall := h, code := Code.HANG } true
          (s.hall h).noProgressFirst
      else s
    if bit policy 4 ∨ x.replay.isSome then
      let s := s.raiseAt { src := 0x1C, hall := h, code := Code.FRAME_OVERRUN, x := coreX first, y := coreY first } true s.frame
      s.each (hallCores h) fun s n => s.stopCore n
    else s.onHall h fun x => { x with late := true }

/-- The fill counts of a hall, up to the present cycle, copied and cleared (R149). -/
def State.copyFill (s : State) (h : Nat) : State :=
  let s := s.each ((s.coresOf h).filter fun e => e.2.seq.ramp != .idle) fun s e => s.countNow e.1
  let used := (s.coresOf h).filter fun e => e.2.seq.occupied != 0 || e.2.seq.streamed != 0
  let s : State := { s with regs := mapDropRange s.regs (Reg.HAL_FILL h 0) (Reg.HAL_FILL h 250) }
  let s := s.each used fun s e =>
    (s.setReg (Reg.HAL_FILL h (hallIndex e.1)) (2 ^ 32 * e.2.seq.occupied + e.2.seq.streamed)).onSeq e.1 fun q =>
      { q with occupied := 0, streamed := 0 }
  let total (f : Seq → Nat) : Nat := used.foldl (fun n e => n + f e.2.seq) 0
  (s.setReg (Reg.HAL_FILL_SUM h) (2 ^ 32 * total (·.occupied) + total (·.streamed))).setReg (Reg.HAL_FILL_FRAME h) s.frame

/-- Step 1 on a hall. One without a context, or in a step, has no overrun. One that is still in steps 6 to 9 of the last landing makes
the contexts concerned late, those that it takes from and gives to: the manual gives no rule for it (DESIGN CHOICE, log
entry 106). -/
def State.step1Hall (s : State) (h : Nat) : State :=
  let x := s.hall h
  let s := s.copyFill h
  if s.inStep h then (s.setReg (Reg.HAL_NOPROGRESS h) 0).onHall h fun x => { x with late := false }
  else
    let s := s.onHall h fun x =>
      { x with late := x.busy, history := (((s.frame, ·) <$> x.holder).toList ++ x.history).take 32 }
    let behind := if x.holder.isSome then (s.coresOf h).filter fun e => !e.2.seq.reachedEnd else []
    match behind with
    | [] => s.setReg (Reg.HAL_NOPROGRESS h) 0
    | e :: _ => s.overrun h behind e.1

/-- Whether every control processor of a hall has halted through HALT, and no main queue has a binding, in force or pending
(R436). -/
def State.hallHalted (s : State) (h : Nat) : Bool :=
  (hallCores h).all fun n =>
    let c := s.core n
    c.cp.halted && c.cp.haltedByHalt && c.seq.main.bind.isNone && c.seq.main.pendBind.all (·.2.isNone)

/-- A kernel ends at step 1 (R436), and so does a unit of a replay (R580), whose last one passes it (R582). -/
def State.kernelEnds (s : State) : State :=
  let s := s.each s.liveCtxs fun s c =>
    let x := s.ctx c
    if x.state ≠ .running then s
    else
      let s := s.onCtx c fun x => { x with lastRun := s.frame }
      let halls := s.heldBy c
      if halls.isEmpty ∨ ¬ halls.all (fun h => !s.inStep h && !(s.hall h).busy && s.hallHalted h) then s
      else match x.kernel with
        | some k => (s.complete k.cmd 0 s.frame 0).onCtx c fun x => { x with kernel := none }
        | none => s
  s.each (List.range 16) fun s h =>
    match (s.hall h).replay with
    | some r =>
      let k := (s.ctx r.ctx).kernel
      if ¬ r.running ∨ r.failed.isSome ∨ s.inStep h ∨ ¬ s.hallHalted h then s
      else
        let next := r.unit + 1
        let s := s.onHall h fun x => { x with replay := some { r with unit := next, running := false } }
        if (k.bind fun k => replayUnit k.m k.bwd next).isNone then s.passReplay h else s
    | none => s

/-! ### Step 2: overflow flags (R180, R383) -/

/-- The overflow flags of a hall collected and cleared; they count for the context that holds the hall. -/
def State.collectHall (s : State) (h : Nat) : Bool × State :=
  let flagged := (s.coresOf h).filter (·.2.seq.ovf)
  let s := s.each flagged fun s e => s.onSeq e.1 fun q => { q with ovf := false }
  match (s.hall h).holder, flagged with
  | some _, e :: _ =>
    let s := (s.count (Reg.HAL_OVF_FRAMES h) 1).setReg (Reg.HAL_OVF_LAST h) (coresWord flagged.length e.1)
    (true, s.setReg (Reg.HAL_OVF_FRAME h) s.frame)
  | _, _ => (false, s)

/-- Step 2 begins: the flags of the halls of contexts that are not late are collected, and every enabled group starts its
exchange. -/
def State.beginStep2 (s : State) : State :=
  let (flagged, s) := (List.range 16).foldl (fun (acc : List Nat × State) h =>
    let late := ((acc.2.hall h).holder.map acc.2.ctxLate).getD false
    if late then acc
    else
      let (set, t) := acc.2.collectHall h
      (if set then (t.hall h).holder.toList ++ acc.1 else acc.1, t)) ([], s)
  s.each ((List.range 16).filter s.lsOn) fun s g =>
    s.lsBegin g (flagged.contains (s.lsCtx g)) (s.ctxLate (s.lsCtx g))

/-! ### Requests that act at a landing (R66, R76, R482, R576) -/

/-- Whether a context's requests wait: it is late, or SUSPECT. -/
def State.waits (s : State) (c : Nat) : Bool := s.ctxLate c || (s.ctx c).state == .suspect

/-- The requests of a kind that act now, in order of acceptance, as context and request. -/
def State.dueReqs (s : State) (kind : ReqKind → Bool) : List (Nat × Req) :=
  let all := s.ctxs.flatMap fun e =>
    if s.waits e.1 then []
    else (e.2.reqs.filter fun r => kind r.kind && r.serial < s.fr.snap && r.target ≤ s.fr.frame).map fun r => (e.1, r)
  let order := byKey (all.zipIdx.map fun a => (a.1.2.serial, a.2))
  order.filterMap fun i => all[i]?

/-- A request leaves the list of its context, and its command has acted. -/
def State.takeReq (s : State) (c : Nat) (r : Req) : State :=
  let s := s.onCtx c fun x => { x with reqs := x.reqs.erase r }
  match r.cmd with
  | some k => s.acted k
  | none => s

/-! ### Steps 3 to 5 -/

/-- Step 3: fences (R367). -/
def State.landFences (s : State) : State :=
  s.each (s.dueReqs fun k => match k with | .fence _ => true | _ => false) fun s e =>
    match e.2.kind, e.2.cmd with
    | .fence epoch, some cmd =>
      (s.takeReq e.1 e.2).onCtx e.1 fun x => { x with epoch := epoch, fenceWriting := x.fenceWriting ++ [(cmd, s.fr.frame)] }
    | _, _ => s

/-- Steps 4 and 5 take up batch descriptors in order of acceptance, as long as neither step handles more than 1,024 entries
(R412, R415). -/
def State.takeBatches (s : State) : State :=
  let due := s.ctxs.filterMap fun e =>
    if s.waits e.1 then none
    else match e.2.pool.bind (·.batch) with
      | some b => if !b.acting && b.serial < s.fr.snap && b.target ≤ s.fr.frame then some (b.serial, e.1) else none
      | none => none
  let (s, _, _) := (byKey due).foldl (fun (acc : State × Nat × Nat) c =>
    let (s, n4, n5) := acc
    match (s.ctx c).pool.bind (·.batch) with
    | none => acc
    | some b =>
      let (m4, m5) := (n4 + b.departs.length, n5 + b.migrates.length)
      if 1024 < m4 ∨ 1024 < m5 then acc
      else ((s.acted b.cmd).onPool c fun p => { p with batch := some { b with acting := true } }, m4, m5)) (s, 0, 0)
  s

/-- The descriptors that act at this landing, in order of acceptance. -/
def State.actingBatches (s : State) : List (Nat × Batch) :=
  let all := s.ctxs.filterMap fun e => (e.2.pool.bind (·.batch)).bind fun b => if b.acting then some (e.1, b) else none
  (byKey (all.zipIdx.map fun a => (a.1.2.serial, a.2))).filterMap fun i => all[i]?

/-- Step 4: departures (R414). -/
def State.landDepartures (s : State) : State :=
  let s := s.takeBatches
  s.each s.actingBatches fun s e => s.each e.2.departs fun s q => s.depart e.1 q

/-- Step 5: re-check failures, switches, migrations, and the versions that have drained (R416, R454, R458, R459). -/
def State.landVersions (s : State) : State :=
  let s := s.recheckFailures
  let s := s.each (s.dueReqs fun k => match k with | .switch _ => true | _ => false) fun s e =>
    match e.2.kind with
    | .switch m => (s.takeReq e.1 e.2).switchVersion e.1 m e.2.cmd
    | _ => s
  let s := s.each s.actingBatches fun s e => s.each e.2.migrates fun s q => s.migrate e.1 q
  s.retireDrained

/-! ### Step 6: requests, faults and the assignment of halls (R427, R434, R435, R437, R461, R594) -/

/-- Whether a DETACH or an EXPORT of a context waits: it is late, or recovery of one of its halls begins at step 8, where it may become
SUSPECT (R76, R574, R576). -/
def State.frozen (s : State) (c : Nat) : Bool := s.ctxLate c || (s.heldBy c).any s.recoveryDue

/-- A context leaves the device (R461): what has not acted is aborted, and its package is to be written. -/
def State.detachCtx (s : State) (c : Nat) (p : PkgWrite) : State :=
  ((s.setCtx c .detached).abortCtx c Code.CMD_ABORTED).onCtx c fun x => { x with pkg := some p, fault := none }

/-- A request of step 6 acts. A DETACH or an EXPORT of a context that step 6 leaves alone waits (Table 2.3). -/
def State.landReq (s : State) (c : Nat) (r : Req) : State :=
  let pkg (isExport g : Bool) (peer dest bytes : Nat) : Option PkgWrite :=
    r.cmd.map fun k => { cmd := k, isExport := isExport, garrid := g, peer := peer, dest := dest, destBytes := bytes, frame := s.fr.frame }
  if ¬ (s.ctx c).reqs.contains r then s
  else match r.kind with
  | .destroy => (s.takeReq c r).destroyCtx c r.cmd
  | .rangeRemove b =>
    let kept := (s.ctx c).ranges.any fun y => y.base == b && (s.ctx c).holdsImage y
    let s := s.takeReq c r
    let s := if kept then s else s.removeRange c b
    match r.cmd with
    | some k => s.done k (if kept then Code.CTX_STATE_INVALID else 0)
    | none => s
  | .hallSet mask =>
    let gone := (s.heldBy c).filter fun h => !bit mask h
    let s := s.each gone fun s h => s.takeHall h c
    let s := if (s.heldBy c).isEmpty then s.countLoss c gone else s
    let s := (s.takeReq c r).setHalls c mask
    match r.cmd with
    | some k => s.complete k 0 s.fr.frame 0
    | none => s
  | .detach g peer dest bytes =>
    match if s.frozen c then none else pkg false g peer dest bytes with
    | some p => (s.takeReq c r).detachCtx c p
    | none => s
  | .exportTo g peer dest bytes =>
    match if s.frozen c ∨ (s.ctx c).pkg.isSome then none else pkg true g peer dest bytes with
    | some p => (s.takeReq c r).onCtx c fun x => { x with pkg := some p }
    | none => s
  | _ => s

/-- The faults and requests of step 6. -/
def State.landRequests (s : State) : State :=
  let faults := s.ctxs.filterMap fun e => match e.2.fault with
    | some f => if f.1 < s.fr.snap ∧ ¬ s.ctxLate e.1 then some (e.1, f.2) else none
    | none => none
  let s := s.each faults fun s f => s.faultCtx f.1 Code.CTX_FAULTED f.2.1 f.2.2
  s.each (s.dueReqs fun k => match k with | .fence _ => false | .switch _ => false | _ => true) fun s e => s.landReq e.1 e.2

/-- Whether a submitted kernel may start at the landing in progress (R66, R434). -/
def State.submissionDue (s : State) (x : Ctx) : Bool :=
  x.submitted.any fun k => k.serial < s.fr.snap && k.target ≤ s.fr.frame

/-- Whether a context is runnable (R434); one whose package is being written is not (R595). -/
def State.runnable (s : State) (c : Nat) : Bool :=
  let x := s.ctx c
  [CtxState.ready, .running, .preempted].contains x.state && (x.kernel.isSome || s.submissionDue x) && x.pkg.isNone
    && !x.models.any fun m => m.2.evicted.isSome && (m.2.state == .active || m.2.state == .draining)

/-- The candidates of R435 in order, each with the key that orders it. -/
def State.candidates (s : State) : List Nat :=
  let keys := s.ctxs.filterMap fun e =>
    let x := e.2
    let idle := x.state == .running && x.kernel.isNone && x.submitted.isNone && x.pkg.isNone
    if s.ctxLate e.1 then none
    else if s.runnable e.1 then some (7 - x.prio, e.1, x.runnableSince)
    else if idle then some (8, e.1, 0)
    else none
  let key (k : Nat × Nat × Nat) : Nat :=
    4096 * ((2 ^ 64 * ((k.1 * 2 + b2n (s.heldBy k.2.1).isEmpty)) + k.2.2)) + k.2.1
  byKey (keys.map fun k => (key k, k.2.1))

/-- The halls that R435 may assign: in service, not in a step, not at work on the last landing, with no recovery that begins now
(R574) and no suspects to resolve, and not held by a context that is late or SUSPECT. -/
def State.freeHalls (s : State) : List Nat :=
  (List.range 16).filter fun h =>
    let x := s.hall h
    let kept (c : Option Nat) : Bool := c.any fun c => s.ctxLate c || (s.ctx c).state == .suspect
    s.online h && !s.inStep h && !x.busy && !s.recoveryDue h && x.suspects.isEmpty && x.replay.isNone && !kept x.holder

/-- The assignment of R435: contexts in order, each with all of its halls or none. -/
def State.assign (s : State) : List Nat :=
  (s.candidates.foldl (fun (acc : List Nat × List Nat) c =>
    let halls := (s.ctx c).hallList
    if halls ≠ [] ∧ halls.all acc.1.contains then (acc.1.filter fun h => !halls.contains h, c :: acc.2) else acc)
    (s.freeHalls, [])).2

/-- The control processors of a hall stop for a spill (R203): an abandoned instruction is executed again on resumption, a
LANDWAIT completes then; the credits in the caches are returned, and the send buffers drain in an open time (R352). -/
def State.stopForSpill (s : State) (h : Nat) : State :=
  let cores := s.coresOf h
  let draining := cores.any fun e => e.2.cp.sendBuf ≠ []
  let (ns, s) := if draining then (1 + s.freeValue.toNat % 2 ^ 16, s.drawn) else (0, s)
  let s := s.each cores fun s e =>
    let s := s.each e.2.cp.cache fun s c => s.returnCredits e.1 c.dest c.credits
    s.onCp e.1 fun c =>
      { c with
        cache := [], creditReq := none, retryDue := false
        block := match c.block with | .landwait r a => .landwait r a | _ => .none }
  s.onHall h fun x => { x with drainNs := ns }

/-- A hall as step 6 leaves it: with a new holder to come, or with the one it has. One that a context has lost and that nobody gets is
zeroed (order 2' of Table 13.3). -/
def State.passHall (s : State) (h : Nat) (new : Option Nat) : State :=
  let old := (s.hall h).holder
  if old = new ∧ (old.isSome ∨ ¬ (s.hall h).dirty) then s.onHall h fun x => { x with stage := .admissions, outgoing := old }
  else
    (s.onHall h fun x => { x with stage := .handover, outgoing := old, incoming := new }).stopForSpill h

/-- A RUNNING context loses its halls (R435, R440). -/
def State.loseHalls (s : State) (c : Nat) : State :=
  let s := (s.countLoss c (s.heldBy c)).onCtx c fun x => { x with spillNs := 0 }
  if (s.ctx c).state ≠ .running then s
  else s.setCtx c (if (s.ctx c).kernel.isSome then .preempted else .ready)

/-- Step 6 (R435, R440): requests and faults act, halls are assigned, contexts change state, and the work of Table 13.3 begins
on each hall whose holder changes. Every other hall goes on to step 7. -/
def State.landAssign (s : State) : State :=
  let s := s.landRequests
  let s := s.each s.liveCtxs fun s c =>
    let since := (s.ctx c).runnableSince
    let now := s.runnable c
    s.onCtx c fun x => { x with runnableSince := if now then (if since = 0 then s.fr.frame + 1 else since) else 0 }
  let given := s.assign
  let fixed := (List.range 16).filter fun h => !s.freeHalls.contains h
  let losers := s.liveCtxs.filter fun c =>
    !given.contains c && (s.ctx c).state != .suspect
      && ((s.heldBy c).any (fun h => !fixed.contains h) || ((s.ctx c).state == .running && (s.heldBy c).isEmpty))
  let newHolder (h : Nat) : Option Nat := given.find? fun c => bit (s.ctx c).named h
  let plan := (List.range 16).map fun h => (h, if fixed.contains h then (s.hall h).holder else newHolder h)
  let s := s.each losers fun s c => s.loseHalls c
  let s := s.each given fun s c =>
    let s := if (s.ctx c).state = .running then s else (s.setCtx c .running).onCtx c fun x => { x with restoreNs := 0 }
    let x := s.ctx c
    let starts := x.kernel.isNone && s.submissionDue x
    s.each x.hallList fun s h => s.onHall h fun y => { y with startKernel := starts }
  s.each plan fun s e =>
    if s.inStep e.1 ∨ (s.hall e.1).busy then s else s.passHall e.1 e.2

/-- The contexts whose step 7 is to run at this landing: those with a pool that are not late; one that was DETACHED at an earlier
landing, or is FAULTED, only to complete its descriptor (R417, R420, R461). A step 7 of the last landing that has not run yet is
still to run. -/
def State.flagStep7 (s : State) : State :=
  s.each s.liveCtxs fun s c =>
    let x := s.ctx c
    let ended := x.state == .faulted || (x.state == .detached && x.changeFrame != s.fr.frame)
    let acting := (x.pool.bind (·.batch)).any (·.acting)
    if ¬ x.step7 ∧ x.pool.isSome ∧ ¬ s.ctxLate c ∧ (¬ ended ∨ acting) then
      s.onCtx c fun y => { y with step7 := true, step7At := s.fr.frame }
    else s

/-- Steps 3 to 5 on the whole device, and step 6 (R68). -/
def State.steps3to6 (s : State) : State :=
  let s : State := { s with fr := { s.fr with landing := .halls } }
  let s := s.landFences.landDepartures.landVersions
  let s := s.landAssign.flagStep7
  let s := if (List.range 16).all s.inStep then s.classDue else s
  s.closeLanding

/-- Step 2 ends once every exchange has ended (R68). -/
def State.endStep2 (s : State) : State :=
  if s.fr.landing = .step2 ∧ ¬ (List.range 16).any (fun g => (s.lsGroup g).inStep2) then s.steps3to6 else s

/-- `LANDING_OPEN`: the landing opens at its instant and takes its snapshot; step 1 runs; VCORE setpoints move and a maintenance
landing recomputes the plan; the idle-fill queues stop (R261); step 2 begins, and where no group waits for peers, steps 3 to 6 follow (R64, R66 to R69, R634). -/
def execLandingOpen (s : State) : Host.Outcome State Fault Refusal :=
  .next <|
    if ¬ s.fr.ticking ∨ ¬ s.fr.ticked ∨ s.fr.landing = .step2 then s
    else
      let s := s.advanceTo (s.frameStart s.frame + s.reg Reg.FTK_PERIOD - s.reg Reg.FTK_LANDING)
      let s := s.each (List.range 16) fun s h => if (s.hall h).busy then s.landingOverrun h else s
      let s : State :=
        { s with
          serial := s.serial + 1
          fr := { s.fr with
            landing := .step2, ticked := false, snap := s.serial + 1, frame := s.frame, openedAt := s.timeNs
            overrunCounted := false } }
      let s := if s.fld Reg.FTK_PPS_CTRL 1 0 = 3 then
          ({ s with fr := { s.fr with ppsHigh := true } } : State).emit (.ppsLevel true) else s
      let s := s.moveSetpoints
      let s := s.each (s.cores.filter (·.2.seq.idle.run.isSome)) fun s e => s.onSeq e.1 Seq.stopIdle
      let s := s.each (List.range 16) fun s h => s.step1Hall h
      let s := s.kernelEnds.maintenanceLanding
      s.beginStep2.endStep2

/-- `LS_ROUND_END`: a round of a group's exchange ends; when the last exchange has ended, steps 3 to 6 follow (R69, R381). -/
def execLsRoundEnd (g : BitVec 4) (s : State) : Host.Outcome State Fault Refusal :=
  .next (if s.fr.landing = .step2 ∧ (s.lsGroup g.toNat).inStep2 then (s.lsRoundEnd g.toNat).endStep2 else s)

/-- `EPOCH_ENTRIES_WRITTEN`: after the landing at which a fence acted, the new epoch stands in the entry of every page of the
context's ranges, and the fence completes with the frame at which it acted (R368). -/
def execEpochEntriesWritten (ctx : CtxId) (s : State) : Host.Outcome State Fault Refusal :=
  let c := ctx.toNat
  let x := s.ctx c
  .next <|
    match x.fenceWriting with
    | (cmd, f) :: rest =>
      if s.fr.landing ≠ .closed then s
      else
        let inRange (r : PotRun) : Bool := x.ranges.any fun y => y.base ≤ r.first && r.first < y.base + y.pages
        let s := s.mapPot (fun e => setBits e 39 24 x.epoch) inRange
        (s.onCtx c fun x => { x with fenceWriting := rest }).complete cmd 0 f 0
    | [] => s

/-! ### The work of Table 13.3 (R203, R204, R264, R321, R440, R445) -/

/-- Whether the work before a hall's spill is done: send buffers drained, loads and patches complete, units idle (R203). -/
def State.spillReady (s : State) (h : Nat) : Bool :=
  (s.coresOf h).all fun e =>
    e.2.cp.sendBuf.isEmpty && e.2.seq.slots.all (fun t => t.2.state != .loading && t.2.patches.isEmpty)
      && e.2.seq.units.all (fun u => u.cur.isNone && u.running.isNone && u.overlap.isNone && u.waiting.isEmpty)
      && e.2.seq.signals.isEmpty

/-- The bytes of a stretch of an alcove that are not 0, by offset. -/
def State.alcoveCells (s : State) (n : Nat) (r : Nat × Nat) : List Host.Cell :=
  ((s.bytesAt (alcoveBase n + r.1) r.2).zipIdx.map fun b => (r.1 + b.2, b.1)).filter (·.2 ≠ 0)

/-- What a context keeps of a core (R204, R263, R438): its record when a kernel is in progress, its live ranges, and the table
shadow with the binding that was asked for last. -/
def State.saveCore (s : State) (c n : Nat) : State :=
  let x := s.ctx c
  let s := s.each x.live fun s r => s.meetErrors (alcoveBase n + r.1) r.2
  let core := s.core n
  let binding (q : SeqQueue) : Option (Nat × Nat) := match q.pendBind.getLast? with | some p => p.2 | none => q.bind
  let ue := s.mem.ecc.filter fun e => e.uncorrectable && x.live.any fun r =>
    alcoveBase n + r.1 ≤ e.key && e.key < alcoveBase n + r.1 + r.2
  let v : SavedCore :=
    { record := if x.kernel.isSome then some { core.cp with prog := [] } else none
      alcove := (x.live.flatMap (s.alcoveCells n)).foldl (fun m e => mapSet 0 m e.1 e.2) []
      poison := ue.map fun e => e.key - alcoveBase n
      slots := core.seq.slots, mainBind := binding core.seq.main, idleBind := binding core.seq.idle }
  s.onCtx c fun x => { x with saved := mapSet {} x.saved n v }

/-- The live bytes of a core written back (R438, R440). -/
def State.restoreLive (s : State) (c n : Nat) : State :=
  let v : SavedCore := mapGet {} (s.ctx c).saved n
  let s := s.writeList (v.alcove.map fun e => (alcoveBase n + e.1, e.2))
  { s with mem := { s.mem with ecc := s.mem.ecc ++ v.poison.map fun o => { key := alcoveBase n + o, uncorrectable := true, found := true } } }

/-- The program of a core in a kernel image: the MAP gives its number, by the hall's place in the context's list (Table 14.5). -/
def State.programOf (s : State) (image ordinal i : Nat) : SMap W32 :=
  let p := s.natAt (image + 256 + 250 * ordinal + i) 1
  let (o, n) := (s.natAt (image + 128 + 8 * p) 4, s.natAt (image + 132 + 8 * p) 4)
  ((List.range n).map fun j => (j, BitVec.ofNat 32 (s.natAt (image + o + 4 * j) 4))).filter (·.2 ≠ 0)

/-- The bytes of a kernel image that hold its header, its MAP and its programs read: errors in them are corrected (R324). -/
def State.readImage (s : State) (image : Nat) : State :=
  let ends := (List.range 16).map fun p => let r := (s.natAt (image + 128 + 8 * p) 4, s.natAt (image + 132 + 8 * p) 4); if r.2 = 0 then 0 else r.1 + 4 * r.2
  s.meetErrors image (ends.foldl max (256 + 250 * s.natAt (image + 7) 1))

/-- The place of a hall in a context's hall list. -/
def Ctx.ordinal (x : Ctx) (h : Nat) : Nat := x.hallList.idxOf h

/-- A core of the incoming context refilled (orders 3, 3′ and 4): its table store and bindings, and with a kernel in progress its
program, and where a record was saved for it, that and its live ranges. An image has no program for a hall beyond its HALLS. -/
def State.resumeCore (s : State) (c h n i : Nat) : State :=
  let x := s.ctx c
  let v : SavedCore := mapGet {} x.saved n
  let s := s.onSeq n fun q =>
    { q with slots := v.slots, main := { q.main with bind := v.mainBind }, idle := { q.idle with bind := v.idleBind } }
  match x.kernel with
  | some k =>
    let prog := if x.ordinal h < s.natAt (k.image + 7) 1 then s.programOf k.image (x.ordinal h) i else []
    match v.record with
    | some cp =>
      let s := (s.onCp n fun _ => { cp with prog := prog }).restoreLive c n
      s.onCtx c fun x => { x with saved := mapSet {} x.saved n {} }
    | none => s.onCp n fun cp => { cp with prog := prog }
  | none => s

/-- The parts of a context's mezzanine windows that lie on a hall, as source, destination and length in bytes (R445). -/
def Ctx.windows (x : Ctx) (h : Nat) : List (Nat × Nat × Nat) :=
  x.models.filterMap fun m =>
    match m.2.mez with
    | some (o, n, d) =>
      if m.2.resident ∧ m.2.pages ≠ 0 then
        let lo := max d (0x300000 * (10 * h))
        let hi := min (d + n) (0x300000 * (10 * h + 10))
        if lo < hi then some (65536 * m.2.base + o + (lo - d), mezBase + lo, hi - lo) else none
      else none
    | none => none

/-- The duration in ns of a copy of `n` bytes at the near bandwidth (Table 13.3). -/
def copyNs (n : Nat) : Nat := 500 + ceilDiv n 768

/-- The pages of a context on a hall after a spill: its shadow, and its save area where anything is saved, hold bytes whose
layout the manual does not give (log entry 47). -/
def State.areasWritten (s : State) (r : Reserve) (saved : Bool) : State :=
  let s := s.forget (65536 * r.shadow) (65536 * (r.shadow + 250))
  if saved then s.forget (65536 * r.save) (65536 * (r.save + 1152)) else s

/-- Orders 1 and 2 on a hall, with their duration. -/
def State.spillHall (s : State) (h c : Nat) : State :=
  let x := s.ctx c
  let live := x.live.foldl (fun t r => t + r.2) 0
  let size := 250 * (live + if x.kernel.isSome then 6656 else 0)
  let ns := (s.hall h).drainNs + (if size = 0 then 0 else copyNs size)
  let s := s.each (hallCores h) fun s n => s.saveCore c n
  let s := (x.reserves.filter (·.hall == h)).foldl (fun s r => s.areasWritten r (size ≠ 0)) s
  s.onCtx c fun x => { x with spillNs := max x.spillNs ns }

/-- Orders 3 to 5 on a hall, with their duration; what has never run, or was attached, has nothing to refill. -/
def State.resumeHall (s : State) (h c : Nat) : State :=
  let x := s.ctx c
  let cores := hallCores h
  let s := if x.everRan then (x.kernel.map fun k => s.readImage k.image).getD s else s
  let kept := cores.map fun n => (mapGet {} x.saved n : SavedCore)
  let steps := kept.foldl (fun t v => v.slots.foldl (fun t e => t + e.2.size) t) 0
  let s := if x.everRan then s.each cores.zipIdx fun s e => s.resumeCore c h e.1 e.2 else s
  let words := cores.foldl (fun t n => t + (s.core n).cp.prog.length) 0
  let live := x.live.foldl (fun t r => t + r.2) 0
  let inProgress := x.everRan && x.kernel.isSome
  let win := x.windows h
  let s := s.each win fun s w => (s.meetErrors w.1 w.2.2).writeBytes w.2.1 (s.bytesAt w.1 w.2.2)
  let ns := (if x.everRan then min 22000 (copyNs (16 * steps)) else 0)
    + (if inProgress then min 5840 (copyNs (4 * words)) + copyNs (250 * (live + 6656)) else 0)
    + (if win.isEmpty then 0 else copyNs (win.foldl (fun t w => t + w.2.2) 0))
  s.onCtx c fun x => { x with restoreNs := max x.restoreNs ns }

/-- `HALL_HANDOVER_DONE`: step 6 ends on a hall whose holder changes: the outgoing context is spilled, the hall is zeroed, the
incoming context is restored, and the hall is its own (R321, R440). -/
def execHallHandoverDone (hall : HallId) (s : State) : Host.Outcome State Fault Refusal :=
  let h := hall.toNat
  let x := s.hall h
  .next <|
    if x.stage ≠ .handover ∨ s.inStep h ∨ ¬ s.spillReady h then s
    else
      let s := match x.holder with
        | some c => s.spillHall h c
        | none => s
      let s := s.zeroHall h
      let s := s.each (hallCores h) fun s n =>
        let seed := (s.core n).cp.srSeed
        let old := (s.core n).cp
        let q := (s.core n).seq
        s.setCore n
          { cp := { srSeed := seed, tepc := old.tepc, tcause := old.tcause, tval := old.tval }
            seq := { ramp := q.ramp, cycle := q.cycle, streamed := q.streamed, occupied := q.occupied } }
      let s := s.onHall h fun y => { y with holder := x.incoming, incoming := none, drainNs := 0, stage := .admissions, dirty := false }
      match x.incoming with
      | some c => s.resumeHall h c
      | none => s

/-! ### Steps 7 to 9 (R67, R68, R225 to R227, R256, R417, R436, R580) -/

/-- Step 9 of a queue: the binding asked for before the snapshot is in force, a selection not consumed is gone, and the queue is
armed; a main queue that still runs an earlier frame's table goes on with it (R225, R226, R256). -/
def SeqQueue.arm (x : SeqQueue) (snap : Nat) (running : Bool) : SeqQueue :=
  let x : SeqQueue :=
    { x with
      bind := match (x.pendBind.filter (·.1 < snap)).getLast? with
        | some p => p.2
        | none => x.bind
      pendBind := x.pendBind.filter (snap ≤ ·.1), armed := true, due := false, sel := none }
  if running then x else { x with run := none, pos := 0, loops := [], stopped := false, endDispatched := false }

/-- Step 9 of a sequencer: the token counters of a core that has reached FRAME_END are cleared (R227, R256), and the idle-fill table
is armed again from step 0 (R261). -/
def Seq.arm (q : Seq) (snap : Nat) : Seq :=
  let running := q.main.run.isSome && !q.main.stopped
  let q := if q.reachedEnd then q.clearTokens else q
  let q := { q with main := q.main.arm snap running, idle := q.idle.arm snap false, numTrapRaised := false }
  if running then q else { q with reachedEnd := q.main.bind.isNone }

/-- The state of a control processor at kernel start (R195, Table 6.2), with its program and the words in s1 and s2. -/
def Cp.atStart (c : Cp) (prog : SMap W32) (s1 s2 : W32) : Cp :=
  { s := ([(1, s1), (2, s2)] : SMap W32).filter (·.2 ≠ 0)
    prog := prog, stopped := false, srSeed := c.srSeed, rx := c.rx, tepc := c.tepc, tcause := c.tcause, tval := c.tval
    sendBuf := c.sendBuf, cache := c.cache, creditReq := c.creditReq, retryDue := c.retryDue }

/-- The live bytes that an attach brought put into the live ranges that the kernel declares, in order (R463). -/
def spread : List (Nat × Nat) → List Byte → List (Nat × Byte)
  | [], _ => []
  | r :: rest, bs => ((bs.take r.2).zipIdx.map fun b => (r.1 + b.2, b.1)) ++ spread rest (bs.drop r.2)

/-- A submitted kernel becomes the kernel in progress (R436, R438); done once for all halls of its context. -/
def State.beginKernel (s : State) (c : Nat) : State :=
  let x := s.ctx c
  match x.kernel, x.submitted with
  | none, some k =>
    let attached := x.attachedLive.map fun e =>
      (e.1, ({ alcove := (spread k.live e.2).foldl (fun m b => mapSet 0 m b.1 b.2) [] } : SavedCore))
    (s.acted k.cmd).onCtx c fun x =>
      { x with
        kernel := some k, submitted := x.queued, queued := none, live := k.live, everRan := true
        saved := attached.foldl (fun m e => mapSet {} m e.1 e.2) x.saved, attachedLive := [] }
  | _, _ => s

/-- The cores of a hall start a kernel: live ranges spilled earlier come back, and every control processor starts (R195,
R440). -/
def State.startOn (s : State) (h c : Nat) : State :=
  let s := (s.beginKernel c).onHall h fun x => { x with startKernel := false }
  let x := s.ctx c
  match x.kernel with
  | none => s
  | some k =>
    (s.readImage k.image).each (hallCores h).zipIdx fun s e =>
      let prog := s.programOf k.image (x.ordinal h) e.2
      let s := (s.restoreLive c e.1).onCtx c fun x => { x with saved := mapSet {} x.saved e.1 {} }
      s.onCp e.1 fun cp => cp.atStart prog k.arg 0

/-- The next unit of a replay starts (R580). -/
def State.startUnit (s : State) (h : Nat) : State :=
  match (s.hall h).replay with
  | none => s
  | some r =>
    let x := s.ctx r.ctx
    if r.running then s
    else match x.kernel with
      | none => s
      | some k => match replayUnit k.m k.bwd r.unit with
        | none => s
        | some u =>
          let s := (s.readImage k.image).each (hallCores h).zipIdx fun s e =>
            let prog := s.programOf k.image (x.ordinal h) e.2
            s.onCp e.1 fun cp => cp.atStart prog (BitVec.ofNat 32 (unitWord u)) k.arg
          let s := if r.unit = 0 then s.each (x.windows h) fun s w => (s.meetErrors w.1 w.2.2).writeBytes w.2.1 (s.bytesAt w.1 w.2.2) else s
          s.onHall h fun y => { y with replay := some { r with running := true } }

/-- Step 9 on a hall: queues are armed for the next frame, kernels and replay units start, and a LANDWAIT can complete. -/
def State.step9 (s : State) (h : Nat) : State :=
  let s := s.classDue
  let next := s.fr.frame + 1
  let s := s.each (s.coresOf h) fun s e => s.onCore e.1 fun c =>
    { c with
      seq := c.seq.arm s.fr.snap
      cp := { c.cp with block := match c.cp.block with | .landwait r _ => .landwait r (some next) | b => b } }
  let s := match (s.hall h).holder with
    | some c => if (s.hall h).startKernel then s.startOn h c else s.startUnit h
    | none => s
  s.onHall h fun x => { x with armedFrame := next }

/-- Steps 8 and 9 on a hall whose step 7 is done. A hall whose recovery begins is not armed. -/
def State.finishHall (s : State) (h : Nat) : State :=
  let s := s.step8 h
  if s.inStep h then s else (s.step9 h).hallDone h

/-- The contexts on either side of step 6 of a hall whose step 7 is still to run (R417). -/
def State.awaited (s : State) (h : Nat) : List Nat :=
  let x := s.hall h
  (x.holder.toList ++ x.incoming.toList ++ x.outgoing.toList).filter fun c => (s.ctx c).step7

/-- `ADMISSIONS`: step 7 of a context, once step 6 has completed on every hall that it held or will hold; then steps 8 and 9 on
each of those halls that awaits no other context; a package that waited for it is written once the landing is over. With no context named, steps 8 and 9 run on the halls that await none
(R68, R417, R418). -/
def execAdmissions (ctx : Option CtxId) (s : State) : Host.Outcome State Fault Refusal :=
  let ready (s : State) (h : Nat) : Bool := (s.hall h).stage == .admissions && (s.awaited h).isEmpty
  .next <|
    match ctx with
    | none => s.each (List.range 16) fun s h => if ready s h then s.finishHall h else s
    | some c =>
      let c := c.toNat
      let halls := (List.range 16).filter fun h => (s.awaited h).contains c
      if ¬ (s.ctx c).step7 ∨ halls.any (fun h => (s.hall h).stage == .handover) then s
      else
        let due := (s.heldBy c).any s.recoveryDue
        let st := (s.ctx c).state
        let s := s.step7 c (st == .suspect || due) (st == .running && !due)
        let s := s.onCtx c fun x => { x with step7 := false }
        let s := s.each halls fun s h => if ready s h then s.finishHall h else s
        if s.fr.landing = .closed then s.sendPackage c else s

end Sys2Proof.Machine
end

