-- ==== Sys2Proof/Machine/Stair.lean ====
section
/-! DEFINITION. The reset stair: requests of the operator, the ends and the deadlines of steps, replays that run out, the crash
dump as bytes and its copies to the host (17 R565 to R593). -/
namespace Sys2Proof.Machine

/-! ### Requests (R568, R573, Tables 17.3 and 17.8) -/

/-- An RST_REQ for a hall: it acts at step 8 of the first landing whose snapshot follows, or is refused for a hall in a step.
Of two requests that wait for one hall the larger stands. -/
def State.requestReset (s : State) (h : Nat) (k : ResetKind) : State :=
  if s.inStep h then s.rstCode Code.RESET_REFUSED
  else s.onHall h fun x =>
    { x with request := match x.request with
      | none => some (k, s.serial)
      | some r => some (if r.1 = .hall then .hall else k, r.2) }

/-- The cause of a step that an operator requests. -/
def State.operatorCause (s : State) : Cause := { src := 0x7F, frame := s.frame, first := s.frame }

/-- `RST_REQ_COMPUTE`: requests a compute-only hall reset. -/
def execRstReqCompute (hall : HallId) (s : State) : Host.Outcome State Fault Refusal :=
  .next (if s.answers then s.requestReset hall.toNat .compute else s)

/-- `RST_REQ_HALL`: requests a hall reset. -/
def execRstReqHall (hall : HallId) (s : State) : Host.Outcome State Fault Refusal :=
  .next (if s.answers then s.requestReset hall.toNat .hall else s)

/-- A die reset requested: at once, or refused for no die of the device and for one in a step (Table 17.8). -/
def State.requestDie (s : State) (d : Nat) : State :=
  if 3 < d ∨ s.dieInReset d then s.rstCode Code.RESET_REFUSED else s.startStep .die d s.operatorCause

/-- `RST_REQ_DIE`: a die reset starts at once. -/
def execRstReqDie (die : BitVec 4) (s : State) : Host.Outcome State Fault Refusal :=
  .next (if s.answers then s.requestDie die.toNat else s)

/-- A device reset requested: at once, or refused while one is in progress. -/
def State.requestDevice (s : State) : State :=
  if s.devStep.isSome then s.rstCode Code.RESET_REFUSED else s.startDeviceReset s.operatorCause

/-- `RST_REQ_DEVICE`: a device reset starts at once. -/
def execRstReqDevice (s : State) : Host.Outcome State Fault Refusal := .next (if s.answers then s.requestDevice else s)

/-- PWR_CYCLE_REQ_N is asserted, and held until the input is removed (R573). -/
def State.assertPowerCycle (s : State) : State :=
  { (s.setFld Reg.RST_STATUS 7 7 1).rstCode Code.POWER_CYCLE_REQ with powerCycleReq := true, powerCycleCopy := false }

/-- `RST_REQ_POWER_CYCLE`: asserts PWR_CYCLE_REQ_N. -/
def execRstReqPowerCycle (s : State) : Host.Outcome State Fault Refusal :=
  .next (if s.answers then s.assertPowerCycle else s)

/-! ### The ends of steps (R566, R588, R692) -/

/-- The slots of a hall that a list names by gallery and slot, as 27 times the gallery index plus the slot. -/
def failedOn (h : Nat) (l : List (BitVec 8 × BitVec 5)) : List Nat :=
  (l.filter fun e => e.1.toNat / 10 == h && e.2.toNat < 27).map fun e => 27 * (e.1.toNat % 10) + e.2.toNat

/-- The array ramps of a hall, which have long reached 0 when a step ends (R140, R143). -/
def State.rampsDone (s : State) (h : Nat) : State :=
  s.each ((hallCores h).filter fun n => (s.core n).seq.ramp != .idle) fun s n => s.onSeq n fun q => { q with ramp := .idle }

/-- `RESET_STEP_END`: a step completes: the tables of its halls are settled with the self-tests that failed, RST_LAST shows the
step, and suspects that have all been resolved are released. A device reset ends once bring-up has. -/
def execResetStepEnd (unit : ResetUnit) (failed : List (BitVec 8 × BitVec 5)) (s : State) : Host.Outcome State Fault Refusal :=
  .next <|
    match unit with
    | .hall h =>
      let h := h.toNat
      (match (s.hall h).step with
      | some st =>
        let t := ((s.rampsDone h).settleTables [h] fun h => failedOn h failed).stepEnded st h 0
        ((t.onHall h fun x => { x with step := none }).writeBack s [h]).settleSuspects h
      | none => s)
    | .die d =>
      let d := d.toNat
      (match mapGet none s.dies d with
      | some st =>
        let halls := coveredHalls .die d
        let t := ((s.each halls State.rampsDone).settleTables halls fun h => failedOn h failed).stepEnded st d 0
        let t : State := { t with dies := mapSet none t.dies d none }
        (t.writeBack s halls).each halls State.settleSuspects
      | none => s)
    | .device =>
      (match s.devStep with
      | some st =>
        if s.fld Reg.DEV_BRINGUP 31 28 < 7 then s else { s.stepEnded st 0 0 with devStep := none }
      | none => s)

/-! ### Deadlines (R570, R573) -/

/-- A missed deadline reported (R570). -/
def State.missed (s : State) (st : Step) (target : Nat) : State :=
  (((s.stepEnded st target 1).count Reg.RST_CNT_ESCALATE 1).rstCode Code.RESET_DEADLINE).raise
    { src := 0x57, code := Code.RESET_DEADLINE, inst := target }

/-- A dump joins those to be copied to the host, if the driver has given a buffer (R593). -/
def State.queueCopy (s : State) (offset : Nat) : State :=
  if s.reg Reg.RST_DUMP_HOST_BYTES = 0 ∨ ¬ s.dumps.any (·.offset == offset) then s
  else { s.setFld Reg.RST_DUMP_STATUS 31 28 8 with dumpCopies := s.dumpCopies ++ [offset] }

/-- A device reset has missed its deadline: the last dump is copied first where it can be, then the pin is asserted (R573). -/
def State.deviceDeadline (s : State) : State :=
  let t := s.queueCopy (s.reg Reg.RST_DUMP_LAST)
  if t.dumpCopies = [] then s.assertPowerCycle else { t with powerCycleCopy := true }

/-- `RESET_DEADLINE`: a step that has not finished gives way to the next step of Table 17.1. The event repeated for the device, 1 s
after its deadline, ends the wait for the copy. In BOOT_FAILED the pin is not asserted (R604). -/
def execResetDeadline (unit : ResetUnit) (s : State) : Host.Outcome State Fault Refusal :=
  .next <|
    match unit with
    | .hall h =>
      let h := h.toNat
      (match (s.hall h).step with
      | some st =>
        let s := (s.missed st h).onHall h fun x => { x with step := none }
        if st.kind = .compute then s.startStep .hall h st.cause else s.startStep .die (h / 4) st.cause
      | none => s)
    | .die d =>
      (match mapGet none s.dies d.toNat with
      | some st =>
        let s := s.missed st d.toNat
        ({ s with dies := mapSet none s.dies d.toNat none } : State).startDeviceReset st.cause
      | none => s)
    | .device =>
      if s.fld Reg.DEV_BRINGUP 31 28 = 8 then s
      else (match s.devStep with
      | some st => ({ s.missed st 0 with devStep := none } : State).deviceDeadline
      | none => if s.powerCycleCopy then s.assertPowerCycle else s)

/-- `REPLAY_LIMIT_REACHED`: a replay that has run RST_REPLAY_LIMIT frames without failure passes (R582). -/
def execReplayLimitReached (hall : HallId) (s : State) : Host.Outcome State Fault Refusal :=
  let h := hall.toNat
  .next <|
    match (s.hall h).replay with
    | some r =>
      if r.failed.isSome ∨ s.frame < r.startFrame + s.reg Reg.RST_REPLAY_LIMIT then s else s.passReplay h
    | none => s

/-! ### The crash dump (R591 to R593, Tables 17.6 and 17.7) -/

/-- The records of the last dump changed; the head of the log follows its length. -/
def State.editDump (s : State) (serial : Nat) (f : List (Nat × Nat × Nat) → List (Nat × Nat × Nat)) : State :=
  match s.dumps.find? (·.serial == serial) with
  | some d =>
    if serial ≠ s.reg Reg.RST_DUMP_SERIAL then s
    else
      let d' := { d with records := f d.records }
      let head := (d.offset + alignUp (dumpBytes d'.records) 64) % 0x10000000
      { s.setReg Reg.RST_DUMP_HEAD head with dumps := s.dumps.map fun e => if e.serial = serial then d' else e }
  | none => s

/-- `DUMP_READ_TIMEOUT`: a unit that did not answer within 100 µs gets an UNREACHABLE record (R592). -/
def execDumpReadTimeout (serial : W32) (kind : Byte) (index : W16) (s : State) : Host.Outcome State Fault Refusal :=
  let unit := (kind.toNat, index.toNat)
  .next <|
    if ¬ s.dumps.any (fun d => d.serial == serial.toNat && d.records.any fun r => (r.1, r.2.1) == unit && r.2.2 == 0) then s
    else
      let s := s.editDump serial.toNat fun l => l.map fun r => if (r.1, r.2.1) = unit then (r.1, r.2.1, 1) else r
      (s.rstCode Code.DUMP_UNREACHABLE).raise { src := 0x58, code := Code.DUMP_UNREACHABLE }

/-- `DUMP_TIME_LIMIT`: one eighth of the deadline has passed: the units not yet read get SKIPPED records and the dump ends
(R592). -/
def execDumpTimeLimit (serial : W32) (done : W32) (s : State) : Host.Outcome State Fault Refusal :=
  .next (s.editDump serial.toNat fun l => l.take done.toNat ++ (l.drop done.toNat).map fun r => (r.1, r.2.1, 2))

/-- A register as a dump shows it: what the registers held then, or the reset value. -/
def Dump.reg (d : Dump) (a : Nat) : Nat := (mapGet (BitVec.ofNat 64 (resetOf a)) d.regs a).toNat

/-- The bytes of a stretch of registers in a dump: write-only and absent ones read 0. -/
def Dump.regBytes (d : Dump) (lo len : Nat) : List Byte :=
  (List.range (len / 4)).flatMap fun i =>
    let a := lo + 4 * i
    match regRow a, regRow (a - 4) with
    | some r, _ => if r.access = .wo then leBytes 4 0 else leBytes 4 (d.reg a % 2 ^ 32)
    | none, some r => if r.width = 8 ∧ r.access ≠ .wo then leBytes 4 (d.reg (a - 4) / 2 ^ 32) else leBytes 4 0
    | none, none => leBytes 4 0

/-- The payload of a unit record. The register sets of FTK, HAL, the channels and the ports are those that the dump found; what the
other units give, and a channel's or a port's queue and pointers, is open. -/
def Dump.payload (d : Dump) (kind index place : Nat) : List Byte :=
  if kind = 2 then d.regBytes 0x100000 256
  else if kind = 3 then d.regBytes (0x1001000 + 0x100000 * index) 12288
  else
    let free := (List.range (unitBytes kind)).map fun i => Config.openByte (2 ^ 32 * d.serial) (65536 * place + i)
    if kind = 7 then d.regBytes (Reg.MEM_CH_CTRL index) 256 ++ free.drop 256
    else if kind = 8 then d.regBytes (Reg.GAR_PORT_CTRL index) 256 ++ free.drop 256
    else free

/-- A dump as bytes (Tables 17.6 and 17.7). -/
def Dump.bytes (d : Dump) : List Byte :=
  let recs := d.records.zipIdx.flatMap fun e =>
    let (k, i, st) := e.1
    let body := if st = 0 then d.payload k i e.2 else []
    leBytes 1 k ++ leBytes 1 st ++ leBytes 2 i ++ leBytes 4 body.length ++ List.replicate 8 0 ++ body
      ++ List.replicate (alignUp body.length 16 - body.length) 0
  let has (st : Nat) : Nat := b2n (d.records.any fun r => r.2.2 == st)
  leBytes 4 0x504D4452 ++ leBytes 2 1 ++ leBytes 1 d.kind ++ leBytes 1 d.target ++ leBytes 4 d.serial
    ++ leBytes 4 d.records.length ++ leBytes 8 (64 + recs.length) ++ leBytes 8 (d.frame % 2 ^ 48)
    ++ leBytes 8 (d.time / unitsPerNs / 1000000000 % 2 ^ 48) ++ leBytes 4 (d.time / unitsPerNs % 1000000000) ++ leBytes 1 d.src
    ++ leBytes 1 (has 1 + 2 * has 2 + 4 * b2n d.timeValid) ++ leBytes 2 d.code ++ List.replicate 16 0 ++ recs

/-- `DUMP_COPY`: a write of RST_DUMP_COPY copies the dump at the offset written (R593). -/
def execDumpCopy (v : W32) (s : State) : Host.Outcome State Fault Refusal :=
  .next (if s.answers then s.queueCopy (bits v.toNat 27 6 * 64) else s)

/-- `DUMP_COPY_DONE`: the copy in progress ends: the dump, truncated to the buffer, has been written, or the write failed. A
power-cycle request that waited for the copy follows (R573, R593). -/
def execDumpCopyDone (ok : Bool) (s : State) : Host.Outcome State Fault Refusal :=
  .next <|
    match s.dumpCopies with
    | [] => s
    | o :: rest =>
      let room := s.reg Reg.RST_DUMP_HOST_BYTES
      let bs := ((s.dumps.find? (·.offset == o)).map Dump.bytes).getD []
      let s : State := { s with dumpCopies := rest }
      let s := s.setFld Reg.RST_DUMP_STATUS 31 28
        (8 * b2n (rest ≠ []) + 4 + 2 * b2n (decide (room < bs.length)) + b2n (!(ok && s.pcie.linkUp)))
      let s := if ok ∧ s.pcie.linkUp then s.emit (.hostWrite (s.reg Reg.RST_DUMP_HOST) (bs.take room))
        else s.raise { src := 0x40, code := Code.HOST_DMA }
      if s.powerCycleCopy then s.assertPowerCycle else s

end Sys2Proof.Machine
end

