-- ==== Sys2Proof/Machine/Views.lean ====
section
/-! DEFINITION. What the registers show that are computed from the rest of the state: their fields have one home there, and a read
puts them together. -/
namespace Sys2Proof.Machine

/-! ### DEV (Tables 1.4, 21.1 and 21.4) -/

/-- DEV_BRINGUP.PHASE (Table 21.1). -/
def State.phase (s : State) : Nat := s.fld Reg.DEV_BRINGUP 31 28
def State.setPhase (s : State) (p : Nat) : State := s.setFld Reg.DEV_BRINGUP 31 28 p

/-- The time since bring-up began, in ms, as ELAPSED_MS shows it. -/
def State.elapsedMs (s : State) : Nat := s.bring.elapsed.getD (min 0xFFFFFF ((s.monoNs - s.bring.began) / 1000000))

/-- DEV_SPARE_SUMMARY: the slots in state SPARE, and the galleries with fewer than 25 slots in service. -/
def State.spareSummary (s : State) : Nat :=
  let all := (List.range 16).flatMap fun h => (List.range 10).map fun j => (h, j)
  let spares := all.foldl (fun n e => n + ((s.hall e.1).slotsIn e.2 1).length) 0
  let short := (all.filter fun e => ((s.hall e.1).slotsIn e.2 0).length < 25).length
  65536 * spares + short

/-! ### HAL (Table 1.6) -/

/-- HAL_SLOT: the state of a slot, and its balustrade, which fences every slot that is not in service (R590). -/
def Hall.slotWord (x : Hall) (k : Nat) : Nat :=
  let st := x.slotState (k / 27) (k % 27)
  b2n (st != 0) * 128 + st

/-! ### HST (Tables 14.11 and 14.12) -/

/-- HST_STATUS: LAST_CODE is stored, and the link fields follow the link (R510). -/
def State.hstStatus (s : State) (fn : Nat) : Nat :=
  setBits (s.reg (hst fn 0)) 15 0 (s.pcie.width * 256 + s.pcie.speed * 16 + b2n s.pcie.linkUp)

/-- The code of a ring's state. -/
def RingState.code : RingState → Nat
  | .disabled => 0 | .enabled => 1 | .error => 2

/-- HST_ADMIN_CFG, with the STATE of the function's admin ring. -/
def State.adminCfg (s : State) (fn : Nat) : Nat :=
  setBits (s.reg (hst fn 0x18)) 30 29 (match s.adminRing fn with | some r => (s.ring r).state.code | none => 0)

/-! ### FLT (Table 16.8) -/

/-- FLT_STATUS: READY is stored; the level of ERR_N and the pending classes are computed. -/
def State.fltStatus (s : State) : Nat :=
  let pin := s.fld Reg.FLT_CTRL 10 8
  let halls := maskOf ((List.range 16).filter fun h => s.reg (Reg.HAL_FLT_PEND h) >>> pin != 0)
  2 ^ 31 * s.fld Reg.FLT_STATUS 31 31 + 2 ^ 30 * b2n s.errNLow + 2 ^ 16 * s.fld Reg.FLT_DEV_PEND 4 0 + halls

/-- FLT_SRC_INFO: the scope, the tag and the base class of a source. -/
def srcInfo (src : Nat) : Nat := b2n (!srcHall src) * 256 + b2n (srcTagged src) * 16 + srcBase src

/-! ### RST (Table 17.11) -/

/-- The step that covers a hall, with its kind code. -/
def State.stepOn (s : State) (h : Nat) : Option Step :=
  match (s.hall h).step, mapGet none s.dies (h / 4), s.devStep with
  | _, _, some d => some d
  | _, some d, none => some d
  | x, none, none => x

/-- RST_HALL: the recovery of a hall. -/
def State.rstHall (s : State) (h : Nat) : Nat :=
  let x := s.hall h
  let step := s.stepOn h
  let kind := (step.map (·.kind.code)).getD 0
  let phase := if step.isSome then 2 else if x.replay.isSome then 3 else if s.ready && !s.online h then 4 else 0
  let suspects := min 31 (x.suspects.length + b2n x.replay.isSome)
  let ctx := (x.replay.map (·.ctx)).getD 0
  let recent := min 31 (x.recTimes.filter fun t => s.monoNs - t < 600000000000).length
  let us := (step.map fun st => min 0xFFFFFFFF ((s.monoNs - st.began) / 1000)).getD 0
  2 ^ 61 * kind + 2 ^ 58 * phase + 2 ^ 53 * suspects + 2 ^ 41 * ctx + 2 ^ 36 * recent + us

/-- RST_STATUS, with the dies in a die reset. -/
def State.rstStatus (s : State) : Nat :=
  setBits (s.reg Reg.RST_STATUS) 3 0 (maskOf ((List.range 4).filter fun d => (mapGet none s.dies d).isSome))

/-! ### CTX (Tables 11.9, 12.11 and 13.13) -/

/-- The code of a context state (Table 13.1). -/
def CtxState.code : CtxState → Nat
  | .free => 0 | .loading => 1 | .ready => 2 | .running => 3 | .preempted => 4 | .suspect => 5 | .faulted => 6 | .detached => 7

/-- CTX_STATE of a context. -/
def State.ctxWord (s : State) (c : Nat) : Nat :=
  let x := s.ctx c
  65536 * x.lastCode + 2 ^ 15 * b2n x.keepMemory + 2 ^ 14 * b2n x.kernel.isSome + 2 ^ 13 * b2n (s.runnable c) + x.prio * 256
    + x.state.code

/-- The bytes per core that a context's image declares live (R438). -/
def Ctx.liveBytes (x : Ctx) : Nat := x.live.foldl (fun n r => n + r.2) 0

/-- The slot that CTX_SHARDS shows: the one that is not ACTIVE. -/
def Ctx.shardSlot (x : Ctx) (m : Nat) : Nat := match x.activeSlot m with | some k => 1 - k | none => 0

/-- CTX_VER_STATE of a model. -/
def Ctx.verWord (x : Ctx) (m : Nat) : Nat :=
  let (a, b) := (x.ver m 0, x.ver m 1)
  2 ^ 15 * b2n b.evicted.isSome + 2 ^ 14 * b2n a.evicted.isSome + 2 ^ 8 * (x.activeSlot m).getD 0 + b.state.code * 16 + a.state.code

/-- The base of a slot's image: 0 when the slot is empty or its image is evicted. -/
def Version.shownBase (v : Version) : Nat := if v.resident then 65536 * v.base else 0

/-- CTX_SHARDS of a model. -/
def Ctx.shardWord (x : Ctx) (m : Nat) : Nat :=
  let v := x.ver m (x.shardSlot m)
  2 ^ 24 * v.shards + 65536 * v.verified.length + v.quarantined.length * 256 + min 255 v.timeouts

/-- CTX_LS_STATUS of a group. -/
def State.lsWord (s : State) (g : Nat) : Nat :=
  let x := s.lsGroup g
  setBits (setBits (s.reg (Reg.CTX_LS_STATUS g)) 31 31 (b2n x.request.isSome)) 30 30 (b2n x.stepOvf)

/-- How many sequences of a pool are in a state. -/
def Pool.countIn (p : Pool) (st : SeqState) : Nat := (p.seqs.filter fun e => e.2.state == st).length

/-- The generation registers of the context selected, by offset from 0xF000 (Table 12.11). -/
def State.genWord (s : State) (o : Nat) : Nat :=
  match (s.ctx (s.fld Reg.CTX_GEN_SEL 11 0)).pool with
  | none => 0
  | some p =>
    match o with
    | 0x04 => 2 ^ 31 * b2n p.batch.isSome + 2 ^ 30 + p.lastCode
    | 0x08 => 2 ^ 32 * p.poolSets + p.freeShown
    | 0x10 => 2 ^ 48 * p.countIn .active + 2 ^ 32 * p.countIn .stalled + 2 ^ 16 * p.countIn .deferred + p.tableRows.length
    | 0x18 => p.rowFrame
    | 0x20 => p.stalls
    | 0x24 => p.defers
    | 0x28 => p.skips
    | 0x2C => p.departsCount
    | _ => 0

/-- A counter of the pool selected set, at its offset from 0xF000. -/
def State.setGenCount (s : State) (o v : Nat) : State :=
  s.onPool (s.fld Reg.CTX_GEN_SEL 11 0) fun p =>
    match o with
    | 0x20 => { p with stalls := v }
    | 0x24 => { p with defers := v }
    | 0x28 => { p with skips := v }
    | 0x2C => { p with departsCount := v }
    | _ => p

/-! ### The value of every register -/

/-- The registers of one HAL block, by offset within the block. -/
def State.viewHal (s : State) (a h o : Nat) : Nat :=
  let x := s.hall h
  if 0x400 ≤ o ∧ o < 0x7E8 then x.slotOf ((o - 0x400) / 4 / 25) ((o - 0x400) / 4 % 25)
  else if 0x800 ≤ o ∧ o < 0xC38 then x.slotWord ((o - 0x800) / 4)
  else if o = 0x1004 then x.spares
  else s.reg a

/-- The registers of the CTX block, by offset within the block. -/
def State.viewCtx (s : State) (a o : Nat) : Nat :=
  let c := s.fld Reg.CTX_SEL 11 0
  let x := s.ctx c
  let y := s.ctx (s.fld Reg.CTX_MODEL_SEL 27 16)
  let m := s.fld Reg.CTX_MODEL_SEL 3 0
  match o with
  | 0x004 => s.ctxWord c
  | 0x008 => 65536 * maskOf (s.heldBy c) + x.named
  | 0x00C => 65536 * x.job + x.ranges.length
  | 0x010 => x.changeFrame
  | 0x018 => 2 ^ 32 * min x.restoreNs 0xFFFFFFFF + min x.spillNs 0xFFFFFFFF
  | 0x020 => x.preempts
  | 0x024 => x.liveBytes
  | 0x100 => 65536 * s.liveCtxs.length + s.images
  | 0x204 => y.verWord m
  | 0x208 => 65536 * (y.ver m 1).pins + (y.ver m 0).pins
  | 0x210 => 2 ^ 32 * (y.ver m 1).version + (y.ver m 0).version
  | 0x218 => (y.ver m 0).shownBase
  | 0x220 => (y.ver m 1).shownBase
  | 0x228 => y.shardWord m
  | _ =>
    if 0xE000 ≤ o ∧ o < 0xF000 ∧ o % 0x100 = 0x18 then s.lsWord ((o - 0xE000) / 0x100)
    else if 0xF004 ≤ o ∧ o < 0xF030 then s.genWord (o - 0xF000)
    else s.reg a

/-- The value of the register at `a`: a BAR0 offset of the PF, or the place of a VF's register (R505). A register of access WO
reads as 0 (Table 0.4). -/
def State.view (s : State) (a : Nat) : Nat :=
  let fn := a / 2 ^ 32
  let o := a % 2 ^ 32
  if ((regRow o).map (·.access)) == some .wo then 0
  else if o = Reg.DEV_BRINGUP then setBits (s.reg a) 23 0 s.elapsedMs
  else if o = Reg.DEV_SPARE_SUMMARY then s.spareSummary
  else if o = Reg.FTK_STATUS then s.ftkStatus
  else if o = Reg.HST_STATUS then s.hstStatus fn
  else if o = Reg.HST_ADMIN_CFG then s.adminCfg fn
  else if 0x1000000 ≤ o ∧ o < 0x2000000 then s.viewHal a ((o - 0x1000000) / 0x100000) (o % 0x100000)
  else if o = Reg.FLT_STATUS then s.fltStatus
  else if 0x3001000 ≤ o ∧ o < 0x3004000 ∧ o % 0x80 = 4 then srcInfo ((o - 0x3001000) / 0x80)
  else if o = Reg.RST_STATUS then s.rstStatus
  else if 0x3100100 ≤ o ∧ o < 0x3100180 then s.rstHall ((o - 0x3100100) / 8)
  else if 0x3400000 ≤ o ∧ o < 0x3410000 then s.viewCtx a (o - 0x3400000)
  else s.reg a

end Sys2Proof.Machine
end

