-- ==== Sys2Proof/Machine/Bringup.lean ====
section
/-! DEFINITION. Bring-up: the phases that the device passes through by itself after a power-up or a device reset (21 R668 to R681,
18 R603, R604). -/
namespace Sys2Proof.Machine

/-- ELAPSED_MS is held (Table 21.4). -/
def State.holdElapsed (s : State) : State := { s with bring := { s.bring with elapsed := some s.elapsedMs } }

/-- Boot stops (R604). -/
def State.stopBoot (s : State) (code : Nat) : State :=
  (((s.secCode code).setFld Reg.SEC_STATUS 2 0 3).setPhase 8).holdElapsed

/-- Phase ROM: slot 0 of both banks is verified; the SUPERVISOR image with the higher VERSION starts, that of bank A when they are
equal; with neither, boot stops with the code of bank A (R603). -/
def State.endRom (s : State) : State :=
  let a := s.imageCode 0 0
  let b := s.imageCode 1 0
  if a ≠ 0 ∧ b ≠ 0 then s.stopBoot a
  else
    let bank := if a = 0 ∧ b = 0 then b2n (s.imageVersion 0 0 < s.imageVersion 1 0) else b2n (a != 0)
    ((s.setFld Reg.SEC_STATUS 6 6 bank).setFld Reg.SEC_STATUS 2 0 1).setPhase 1

/-- Phase IMAGES: the factory record, then image slots 1 to 3 of the same bank, are verified; what fails stops boot. Then the channels
train and identity derivation starts (R603, R673). -/
def State.endImages (s : State) : State :=
  if ¬ s.factoryOk then (s.raise { src := 0x54, code := Code.CONFIG_FACTORY_FAIL }).stopBoot Code.CONFIG_FACTORY_FAIL
  else match ([1, 2, 3].map (s.imageCode s.bank)).find? (· ≠ 0) with
    | some c => (s.raise { src := 0x55, code := c }).stopBoot c
    | none =>
      let s := s.each (List.range 256) fun s c => s.setFld (Reg.MEM_CH_STATUS c) 2 0 1
      (s.setReg Reg.SEC_SERIAL s.factorySerial).setPhase 2

/-- HBM and IDENTITY run at the same time; PHASE shows the lower one that has not finished (R668). -/
def State.endTwin (s : State) : State := s.setPhase (if ¬ s.bring.hbmDone then 2 else if ¬ s.bring.identityDone then 3 else 4)

/-- Phase HBM: channels that failed are FAILED, the others in SERVICE with the data of the run; regions with all channels in
SERVICE get their ownership entries and are online (R673 to R675). -/
def State.endHbm (s : State) (failed : List Nat) : State :=
  let s := s.each (List.range 256) fun s c =>
    if s.chState c = 4 then s
    else if failed.contains c then
      (s.setFld (Reg.MEM_CH_STATUS c) 2 0 4).raise { src := 0x14, hall := c / 16, code := Code.MEM_CHANNEL_DOWN, inst := c }
    else s.setFld (Reg.MEM_CH_STATUS c) 2 0 2
  let s := s.each (List.range 16) fun s r =>
    let t := s.settleRegion r
    if t.regionOnline r then
      let t := t.setPot (2 ^ 20 * r) (2 ^ 20) 0
      (t.zeroRange (2 ^ 36 * r) (2 ^ 36 * r + 0xFFE000000)).forget (2 ^ 36 * r) (2 ^ 36 * r + 0xFFE000000)
    else t
  ({ s with bring := { s.bring with hbmDone := true } } : State).endTwin

/-- Phase MARGIN: the plan is recomputed for every hall and each setpoint set to its target (R632, R669). -/
def State.endMargin (s : State) (readings : List PathReading) : State :=
  let s := (s.takeReadings readings).recompute (List.range 16)
  (s.each (List.range 16) fun s h => s.setSetpoint h (s.target h)).setPhase 5

/-- The slots that are UNUSABLE. -/
def State.unusable (s : State) : Nat :=
  ((List.range 16).map fun h => ((List.range 10).map fun j => ((s.hall h).slotsIn j 3).length).sum).sum

/-- DEV_SELFTEST.UNUSABLE counts what a change of the tables has made UNUSABLE (Table 21.4). -/
def State.countUnusable (s : State) (before : Nat) : State :=
  s.setFld Reg.DEV_SELFTEST 28 16 (s.fld Reg.DEV_SELFTEST 28 16 + (s.unusable - before))

/-- READY (R679): FLT_STATUS.READY is set, and DEV_SELFTEST shows the regions that are not online. -/
def State.reachReady (s : State) : State :=
  let s := (s.setPhase 7).setFld Reg.FLT_STATUS 31 31 1
  let s := s.setFld Reg.SEC_STATUS 2 0 2
  (s.setFld Reg.DEV_SELFTEST 47 32 (0xFFFF - s.reg Reg.MEM_REGION_ONLINE)).holdElapsed

/-- The halls in service. -/
def State.onlineHalls (s : State) : List Nat := (List.range 16).filter s.online

/-- Phase SLOTS: the tables of every hall are settled with the self-tests; with no hall in service the known-answer run is
skipped (R588, R589, R676). -/
def State.endSlots (s : State) (failed : List (BitVec 8 × BitVec 5)) : State :=
  let before := s.unusable
  let halls := List.range 16
  let s := (s.settleTables halls fun h => failedOn h failed).writeBack s halls
  let s := (s.countUnusable before).setPhase 6
  if s.onlineHalls = [] then s.reachReady else s

/-- The units of the known-answer run that the halls in service have run, hall by hall in ascending order (R676). -/
def State.katRun (s : State) : List (Nat × Nat) := s.onlineHalls.map fun h => (h, mapGet 0 s.bring.katUnits h)

/-- The next unit of the hall of rank `p` that has run `i` units, with P halls and M = P (R394, R676). -/
def katUnit (t p i : Nat) : Option (Bool × Nat × Nat) := scheduleUnit t p t true i

/-- Whether the known-answer run has ended on every hall. -/
def State.katOver (s : State) : Bool :=
  let run := s.katRun
  run.zipIdx.all fun e => (katUnit run.length e.2 e.1.2).isNone

/-- Whether a hall's unit has its input: the forward unit of the chunk before, or the backward unit of the chunk after, has been run
by the hall that holds that chunk (R395). -/
def katInput (run : List (Nat × Nat)) (p : Nat) (u : Bool × Nat × Nat) : Bool :=
  let t := run.length
  let chunk := u.2.1 * t + p
  if chunk = (if u.1 then 4 * t - 1 else 0) then true
  else
    let from_ := if u.1 then chunk + 1 else chunk - 1
    let q := from_ % t
    (List.range ((run.getD q (0, 0)).2)).any fun i => katUnit t q i == some (u.1, from_ / t, u.2.2)

/-- A private frame: each hall whose next unit has its input at the frame's start runs it; the others leave the frame idle (R395). -/
def State.katFrame (s : State) : State :=
  let run := s.katRun
  let units := run.zipIdx.foldl (fun m e =>
    match katUnit run.length e.2 e.1.2 with
    | some u => if katInput run e.2 u then mapSet 0 m e.1.1 (e.1.2 + 1) else m
    | none => m) s.bring.katUnits
  { s with bring := { s.bring with katUnits := units } }

/-- Phase KAT: a core with a wrong result makes its slot UNUSABLE and gets a spare; the run is then repeated once for the halls
still in service, and a hall that is wrong again leaves service (R678). -/
def State.endKat (s : State) (wrong : List Coord) : State :=
  let cores := (wrong.filter fun c => c.x.toNat < 80 && c.y.toNat < 50).map coreNo
  let cores := cores.filter fun n => s.online (coreHall n)
  if cores = [] then s.reachReady
  else
    let before := s.unusable
    let halls := (List.range 16).filter fun h => cores.any fun n => coreHall n == h
    let slotOf (s : State) (n : Nat) : Nat :=
      let j := coreGallery n % 10
      27 * j + (s.hall (coreHall n)).slotOf j (posOf (coreX n) (coreY n))
    let s := s.each halls fun s h =>
      let failed := (cores.filter fun n => coreHall n == h).map (slotOf s)
      (s.settleWith (s.restoredHall h) h fun k st => if failed.contains k then 3 else st).writeBack s [h]
    let s := s.countUnusable before
    if s.bring.katRuns = 0 then
      let s : State := { s with bring := { s.bring with katRuns := 1, katMiss := halls, katUnits := [] } }
      if s.onlineHalls = [] then s.reachReady else s
    else
      let twice := halls.filter s.bring.katMiss.contains
      let s := s.each twice fun s h =>
        (s.setFld Reg.DEV_HALL_ONLINE h h 0).setFld Reg.DEV_SELFTEST (48 + h) (48 + h) 1
      s.reachReady

/-- `BRINGUP_PHASE_END`: the phase that a result belongs to finishes, if it is in progress, and the next one starts (R668). -/
def execBringupPhaseEnd (r : PhaseResult) (s : State) : Host.Outcome State Fault Refusal :=
  let p := s.phase
  .next <|
    if ¬ s.power.good then s
    else match r with
      | .rom => if p = 0 then s.endRom else s
      | .images => if p = 1 then s.endImages else s
      | .hbm failed => if (p = 2 ∨ p = 3) ∧ ¬ s.bring.hbmDone then s.endHbm (failed.map (·.toNat)) else s
      | .identity =>
        if (p = 2 ∨ p = 3) ∧ ¬ s.bring.identityDone ∧ s.identity ≠ 0 then
          ({ s with bring := { s.bring with identityDone := true } } : State).endTwin
        else s
      | .margin l => if p = 4 then s.endMargin l else s
      | .slots failed => if p = 5 then s.endSlots failed else s
      | .kat wrong => if p = 6 ∧ s.katOver then s.endKat wrong else s

/-- `KAT_PRIVATE_TICK`: a private frame of the known-answer run passes and is counted; the frame tick does not move (R677). -/
def execKatPrivateTick (s : State) : Host.Outcome State Fault Refusal :=
  .next <|
    if s.power.good ∧ s.phase = 6 ∧ ¬ s.katOver then
      s.katFrame.setFld Reg.DEV_SELFTEST 15 0 (min 0xFFFF (s.fld Reg.DEV_SELFTEST 15 0 + 1))
    else s

/-- `BRINGUP_TIMEOUT`: bring-up has not reached READY by its deadline: RESET_DEADLINE, then as a device reset that missed its
deadline (R570, R573, R672). Boot that has stopped asks for nothing (R604). -/
def execBringupTimeout (s : State) : Host.Outcome State Fault Refusal :=
  .next <|
    if ¬ s.power.good ∨ 7 ≤ s.phase then s
    else match s.devStep with
      | some st => ({ s.missed st 0 with devStep := none } : State).deviceDeadline
      | none =>
        (((s.count Reg.RST_CNT_ESCALATE 1).rstCode Code.RESET_DEADLINE).raise
          { src := 0x57, code := Code.RESET_DEADLINE }).deviceDeadline

end Sys2Proof.Machine
end

