-- ==== Sys2Proof/Machine/FaultCmds.lean ====
section
/-! DEFINITION. The commands of the fault collector: an event of a source, and the re-arming of a latch (16 R549 to R564). -/
namespace Sys2Proof.Machine

/-- Whether an event can arise: its source exists, and a unit check names a core of its hall (R549, R550, Table 16.1). -/
def Event.sound (e : Event) : Bool :=
  e.src < 0x60 && (!(0x29 ≤ e.src && e.src ≤ 0x2F) || (e.x < 80 && e.y < 50 && hallOf e.x e.y == e.hall))

/-- The status code that Tables 16.1 and 16.2 name for a source, none where they leave it to the event. -/
def srcCode (src : Nat) : Option Nat :=
  match src with
  | 0x05 => some Code.DESC_INDEX
  | 0x06 => some Code.MEM_RESERVED
  | 0x07 => some Code.MEM_OWNER
  | 0x08 => some Code.MEM_PERM
  | 0x09 | 0x14 => some Code.MEM_CHANNEL_DOWN
  | 0x11 | 0x12 | 0x13 => some Code.MEM_CE
  | 0x17 => some Code.NUMERIC_TRAP
  | 0x19 => some Code.MSG_CREDIT_TIMEOUT
  | 0x1B => some Code.QUARANTINE_DROP
  | 0x1C => some Code.FRAME_OVERRUN
  | 0x1D => some Code.HANG
  | 0x1E => some Code.LANDING_OVERRUN
  | 0x1F => some Code.MESH_DEADLOCK
  | 0x30 => some Code.TIME_UNLOCKED
  | 0x31 => some Code.TIME_STEP_REFUSED
  | 0x32 => some Code.FRAME_SKEW
  | 0x33 => some Code.HOLDOVER_EXPIRED
  | 0x36 => some Code.LINK_DOWN
  | 0x37 => some Code.LINK_DEGRADED
  | 0x38 => some Code.LINK_TRAIN_FAIL
  | 0x39 => some Code.LINK_RETRY_EXCEEDED
  | 0x3A => some Code.LINK_PEER_MISMATCH
  | 0x3C => some Code.PTP_LOST
  | 0x3D => some Code.BULK_REFUSED
  | 0x3E => some Code.ROUTE_CONFIG
  | 0x3F => some Code.LINK_LOST
  | 0x46 => some Code.DIGEST_FAIL
  | 0x47 => some Code.SHARD_TIMEOUT
  | 0x48 => some Code.LS_DIVERGED
  | 0x49 => some Code.LS_FLAG_MISSED
  | 0x4A => some Code.MEM_TG_MISMATCH
  | 0x01 | 0x03 | 0x04 | 0x18 | 0x1A | 0x34 | 0x40 | 0x41 | 0x42 | 0x43 | 0x4B | 0x54 | 0x55 | 0x56 | 0x57 | 0x58 => none
  | _ => if 0x0A ≤ src ∧ src ≤ 0x10 then some Code.MEM_UE else some 0

/-- The sources for which the tables name a unit number. -/
def srcNumbered : List Nat :=
  [0x00, 0x03, 0x13, 0x14, 0x15, 0x16, 0x23, 0x24, 0x25, 0x26, 0x27, 0x28, 0x36, 0x37, 0x38, 0x39]
  ++ [0x3A, 0x3B, 0x3C, 0x42, 0x46, 0x48, 0x49, 0x4A, 0x4D, 0x4E, 0x51, 0x52, 0x53, 0x57, 0x5D, 0x5E]

/-- What R550 records of an event: the CODE of its source where the tables name one, INST where they name a unit, and X and Y for the
sources that a core raises; those of 0x24 name the gallery by its position 0. -/
def Event.shown (e : Event) : Event :=
  let core : Bool := e.src ≤ 0x10 || (0x17 ≤ e.src && e.src ≤ 0x1A) || (0x29 ≤ e.src && e.src ≤ 0x2F)
  let g := galleryOf e.x e.y
  { e with
    code := (srcCode e.src).getD e.code
    inst := if srcNumbered.contains e.src then e.inst else 0
    x := if core then e.x else if e.src = 0x24 then xOf g 0 else 0
    y := if core then e.y else if e.src = 0x24 then yOf g 0 else 0 }

/-- `FAULT_EVENT`: an event of a fault source is counted, classed, latched, made pending and acted on (R551 to R562). An untagged
source names no context (R549). -/
def execFaultEvent (src : BitVec 7) (hall : HallId) (ctx : Option CtxId) (code : W16) (inst : Byte) (x : BitVec 7) (y : BitVec 6)
    (s : State) : Host.Outcome State Fault Refusal :=
  let e : Event :=
    { src := src.toNat, hall := if srcHall src.toNat then hall.toNat else 0
      ctx := if srcTagged src.toNat then ctx.map (·.toNat) else none
      code := code.toNat, inst := inst.toNat, x := x.toNat, y := y.toNat }
  .next (if s.power.good ∧ e.sound then s.raise e.shown else s)

/-- The latch of a scope, none for the device. -/
def latchOf (scope : Option HallId) : Nat := match scope with | some h => Reg.HAL_FLT_LATCH h.toNat | none => Reg.FLT_DEV_LATCH

/-- `LATCH_CLEAR`: a write of 1 to LATCH of a CLEAR register sets VALID and OVERFLOW of the scope's latch to 0 (R563). The HAL
registers answer from READY on (R671). -/
def execLatchClear (scope : Option HallId) (s : State) : Host.Outcome State Fault Refusal :=
  .next (if s.answers ∧ (scope.isNone ∨ s.ready) then s.setFld (latchOf scope) 63 62 0 else s)

end Sys2Proof.Machine
end

