-- ==== Sys2Proof/Machine/Links.lean ====
section
/-! DEFINITION. The Garrid ports: their control, training and width, replay, credits, the device id and the routing table, bulk
transfers, and PTP (15 R514 to R546). -/
namespace Sys2Proof.Machine

/-! ### Control (R524, R525, R527, Table 15.9) -/

/-- A write of GAR_PORT_CTRL: UE_LIMIT and ATTEMPTS take a value from 1 on; LANE_RESET acts at the next training; EN takes the
port to DOWN or to DISABLED, and releases CBL_LPMODE (R524, R525, R527, R662). -/
def State.writePortCtrl (s : State) (g v : Nat) : State :=
  let r := Reg.GAR_PORT_CTRL g
  let s := if bits v 15 8 = 0 then s else s.setFld r 15 8 (bits v 15 8)
  let s := if bits v 3 0 = 0 then s else s.setFld r 3 0 (bits v 3 0)
  let s := if bit v 30 then s.onPort g fun q => { q with readmit := true } else s
  let was := bit (s.reg r) 31
  let s := s.setFld r 31 31 (b2n (bit v 31))
  if bit v 31 ∧ ¬ was then
    let k := mapGet {} s.cables (g / 4)
    let s : State := { s with cables := mapSet {} s.cables (g / 4) { k with lpmode := false } }
    ((s.setFld (Reg.GAR_PORT_STATUS g) 2 0 1).onPort g fun q => { q with attempts := 0 }).startTraining g
  else if ¬ bit v 31 ∧ was then
    if s.portUp g then s.portLeaves g 0 else s.setFld (Reg.GAR_PORT_STATUS g) 2 0 0
  else s

/-- `PORT_ENABLE`: a write of GAR_PORT_CTRL with EN = 1. -/
def execPortEnable (port : PortId) (v : W32) (s : State) : Host.Outcome State Fault Refusal :=
  .next (s.whenReady (s.writePortCtrl port.toNat (setBits v.toNat 31 31 1)))

/-- `PORT_DISABLE`: a write of GAR_PORT_CTRL with EN = 0. -/
def execPortDisable (port : PortId) (v : W32) (s : State) : Host.Outcome State Fault Refusal :=
  .next (s.whenReady (s.writePortCtrl port.toNat (setBits v.toNat 31 31 0)))

/-- `LANE_RESET`: a write of GAR_PORT_CTRL with LANE_RESET = 1. -/
def execLaneReset (port : PortId) (v : W32) (s : State) : Host.Outcome State Fault Refusal :=
  .next (s.whenReady (s.writePortCtrl port.toNat (setBits v.toNat 30 30 1)))

/-- `ALIGN`: an ALIGN slot gives the codeword counter of a lane, by which the lanes are deskewed; the symbols corrected on the
lane since the last one are counted (R514, R521, Table 15.8). -/
def execAlign (port : PortId) (lane : BitVec 2) (codeword corrected : W32) (s : State) : Host.Outcome State Fault Refusal :=
  let g := port.toNat
  .next <|
    if s.portState g = 2 ∨ s.portUp g then
      (s.count64 (Reg.GAR_PORT_CE g) corrected.toNat).onPort g fun q =>
        { q with aligned := mapSet 0 q.aligned lane.toNat codeword.toNat }
    else s

/-- `IDENT`: the peer's IDENT in training; the port's own device id in it fails the training (R524, R528). -/
def execIdent (port : PortId) (id : W16) (peer : BitVec 4) (lanes : BitVec 4) (degrade : Bool) (s : State) :
    Host.Outcome State Fault Refusal :=
  let g := port.toNat
  .next <|
    if s.portState g ≠ 2 then s
    else
      let s := s.setFld (Reg.GAR_PORT_STATUS g) 31 12 (id.toNat * 16 + peer.toNat)
      if id.toNat = s.deviceId then s.trainFail g 0x3A Code.LINK_PEER_MISMATCH
      else s.onPort g fun q => { q with ident := some (lanes.toNat, degrade) }

/-- `TRAINING_COMPLETE`: the lanes that qualified here, are not excluded and that the peer can use come into service, or are too
few; sequence numbers start at 0 and credits are whole (R518, R524, R526, R527). -/
def execTrainingComplete (port : PortId) (usable : BitVec 4) (s : State) : Host.Outcome State Fault Refusal :=
  let g := port.toNat
  let q := s.port g
  .next <|
    match q.ident with
    | none => s
    | some (peerLanes, peerDegrade) =>
      if s.portState g ≠ 2 then s
      else
        let own := usable.toNat &&& (15 - s.fld (Reg.GAR_PORT_STATUS g) 7 4)
        let lanes := own &&& peerLanes
        let n := (bitsOf lanes 4).length
        let degrade := s.feature featDegrade
        let s := s.emit (.control g (.ident (BitVec.ofNat 16 s.deviceId) port (BitVec.ofNat 4 own) degrade))
        if n = 4 ∨ (2 ≤ n ∧ degrade ∧ peerDegrade) then
          let s := (s.setFld (Reg.GAR_PORT_STATUS g) 11 8 lanes).setFld (Reg.GAR_PORT_STATUS g) 2 0 (if n = 4 then 3 else 4)
          let s := s.onPort g fun q =>
            { scan := q.scan, readmit := q.readmit, lastLanes := n, aligned := q.aligned, syncSeq := q.syncSeq
              delaySeq := q.delaySeq, delay := q.delay }
          if n < q.lastLanes then s.portCode g 0x37 Code.LINK_DEGRADED else s
        else s.trainFail g 0x38 Code.LINK_TRAIN_FAIL

/-- `TRAINING_TIMEOUT`: a training that has not finished within 2 s fails (R525). -/
def execTrainingTimeout (port : PortId) (s : State) : Host.Outcome State Fault Refusal :=
  .next (if s.portState port.toNat = 2 then s.trainFail port.toNat 0x38 Code.LINK_TRAIN_FAIL else s)

/-- `TRAINING_RETRY`: a port in DOWN trains again, or is FAILED after ATTEMPTS failures in succession (R525, R527). -/
def execTrainingRetry (port : PortId) (s : State) : Host.Outcome State Fault Refusal :=
  let g := port.toNat
  .next <|
    if s.portState g ≠ 1 then s
    else if s.fld (Reg.GAR_PORT_CTRL g) 3 0 ≤ (s.port g).attempts then s.setFld (Reg.GAR_PORT_STATUS g) 2 0 5
    else s.startTraining g

/-- `LOSS_OF_SIGNAL`: an active lane loses signal or codeword lock (R527). -/
def execLossOfSignal (port : PortId) (lane : BitVec 2) (s : State) : Host.Outcome State Fault Refusal :=
  let g := port.toNat
  .next (if s.portUp g ∧ bit (s.fld (Reg.GAR_PORT_STATUS g) 11 8) lane.toNat then s.portLeaves g 1 else s)

/-- `LANE_UE_LIMIT`: a lane with more than UE_LIMIT uncorrectable codewords in a second is excluded (R527). -/
def execLaneUeLimit (port : PortId) (lane : BitVec 2) (s : State) : Host.Outcome State Fault Refusal :=
  let g := port.toNat
  .next <|
    if s.portUp g ∧ bit (s.fld (Reg.GAR_PORT_STATUS g) 11 8) lane.toNat then
      (s.setFld (Reg.GAR_PORT_STATUS g) (4 + lane.toNat) (4 + lane.toNat) 1).portLeaves g 1
    else s

/-! ### Replay and credits (R518 to R523) -/

/-- A port goes down because replay failed (R523). -/
def State.retryExceeded (s : State) (g : Nat) : State := (s.portCode g 0x39 Code.LINK_RETRY_EXCEEDED).portLeaves g 1

/-- A number requested once more: the number, and how often in succession. -/
def askAgain (a : Nat × Nat) (n : Nat) : Nat × Nat := (n, if a.1 = n then a.2 + 1 else 1)

/-- A REPLAY_REQ sent; the eighth in succession for one number takes the port down (R522, R523). -/
def State.sendReplayReq (s : State) (g n : Nat) : State :=
  let a := askAgain (s.port g).asked n
  let s := (s.count (Reg.GAR_PORT_REPLAYS g) 1).emit (.control g (.replayReq (BitVec.ofNat 16 n)))
  let s := s.onPort g fun q => { q with asked := a, rxWait := some n }
  if 8 ≤ a.2 then s.retryExceeded g else s

/-- `BAD_FLIT`: the flit that is expected next, with a number, lies in uncorrectable codewords: it and the flits after it are
discarded, and a REPLAY_REQ is sent (R521, R522). The codewords found uncorrectable are counted and reported (Table 16.2). -/
def execBadFlit (port : PortId) (seq : W16) (codewords : BitVec 2) (s : State) : Host.Outcome State Fault Refusal :=
  let g := port.toNat
  .next <|
    if ¬ s.portUp g then s
    else
      let s := s.each (List.range codewords.toNat) fun s _ => (s.count (Reg.GAR_PORT_UE g) 1).raise { src := 0x3B, inst := g }
      if (s.port g).rxWait.isSome then s else s.sendReplayReq g seq.toNat

/-- `REPLAY_REQ_REPEAT`: 1 µs without the REPLAY_START that names the expected number (R522). -/
def execReplayReqRepeat (port : PortId) (s : State) : Host.Outcome State Fault Refusal :=
  let g := port.toNat
  .next <|
    match (s.port g).rxWait with
    | some n => if s.portUp g then s.sendReplayReq g n else s
    | none => s

/-- `REPLAY_START`: the flits from the expected number on are accepted again (R522). -/
def execReplayStart (port : PortId) (seq : W16) (s : State) : Host.Outcome State Fault Refusal :=
  let g := port.toNat
  .next (if (s.port g).rxWait = some seq.toNat then s.onPort g fun q => { q with rxWait := none } else s)

/-- The flit, counted since link-up, that a 16-bit sequence number names: the first from `low` on. -/
def fullSeq (low seq : Nat) : Nat := low + (seq + 2 ^ 16 - low % 2 ^ 16) % 2 ^ 16

/-- `REPLAY_REQ`: REPLAY_START is sent and then the replay buffer from the number on; a number that is not in the buffer, or that
is requested for the eighth time in succession, takes the port down (R522, R523). -/
def execReplayReq (port : PortId) (seq : W16) (s : State) : Host.Outcome State Fault Refusal :=
  let g := port.toNat
  let q := s.port g
  let n := fullSeq q.acked seq.toNat
  let a := askAgain q.askedBy n
  .next <|
    if ¬ s.portUp g then s
    else if q.seqNext ≤ n ∨ 8 ≤ a.2 then s.retryExceeded g
    else
      let s := (s.onPort g fun q => { q with askedBy := a }).emit (.control g (.replayStart seq))
      s.each (q.replay.filter fun e => decide (n ≤ e.1)) fun s e => s.emit (.garrid g e.2.wire)

/-- `LINK`: ACK_SEQ lets go of the flits before it, and the counts give credits back; what waited for them is sent (R518,
R520). -/
def execLink (port : PortId) (ack : W16) (counts : List W16) (s : State) : Host.Outcome State Fault Refusal :=
  let g := port.toNat
  .next <|
    if ¬ s.portUp g then s
    else
      let s := s.onPort g fun q =>
        let n := fullSeq q.acked ack.toNat
        let q := if n ≤ q.seqNext then { q with acked := n, replay := q.replay.filter fun e => decide (n ≤ e.1) } else q
        counts.zipIdx.foldl (fun (q : Port) c =>
          let k := fullSeq (mapGet 0 q.peerFreed c.2) c.1.toNat
          if k ≤ mapGet 0 q.sent c.2 then { q with peerFreed := mapSet 0 q.peerFreed c.2 k } else q) q
      s.pump g

/-! ### Eye margins (R530) -/

/-- `MARGIN_SCAN`: a write of GAR_MARGIN_CTRL starts a scan of the lanes of its mask. -/
def execMarginScan (port : PortId) (lanes : BitVec 4) (s : State) : Host.Outcome State Fault Refusal :=
  .next (s.whenReady (s.onPort port.toNat fun q => { q with scan := q.scan ||| lanes.toNat }))

/-- `MARGIN_SCAN_DONE`: the scan of a lane ends and gives its margins. -/
def execMarginScanDone (port : PortId) (lane : BitVec 2) (horiz vert : W16) (s : State) : Host.Outcome State Fault Refusal :=
  let g := port.toNat
  .next <|
    if ¬ bit (s.port g).scan lane.toNat then s
    else
      (s.onPort g fun q => { q with scan := setBits q.scan lane.toNat lane.toNat 0 }).setReg
        (Reg.GAR_LANE_MARGIN g lane.toNat) (2 ^ 63 + 65536 * horiz.toNat + vert.toNat)

/-! ### Device id, routing and roles (R534 to R536, R542) -/

/-- A PTP or routing code recorded, with the event of ROUTE_CONFIG (Table 15.9). -/
def State.routeRefused (s : State) : State :=
  (s.setFld Reg.GAR_PTP_STATUS 31 16 Code.ROUTE_CONFIG).raise { src := 0x3E, code := Code.ROUTE_CONFIG }

/-- `DEVICE_ID_WRITE`: a write of GAR_DEVICE_ID while every port is DISABLED, DOWN or FAILED; ports that wait for the id train
(R524, R534). -/
def execDeviceIdWrite (v : W32) (s : State) : Host.Outcome State Fault Refusal :=
  let id := bits v.toNat 15 0
  .next <| s.whenReady <|
    if id = 0xFFFF ∨ (List.range 16).any fun g => s.portState g == 2 || s.portUp g then s.routeRefused
    else (s.setReg Reg.GAR_DEVICE_ID id).startPorts (List.range 16)

/-- `ROUTE_WRITE`: a routing entry set for packets that are routed from now on (R535, R536). -/
def execRouteWrite (id : W16) (v : W32) (s : State) : Host.Outcome State Fault Refusal :=
  .next (s.whenReady (s.setReg (Reg.GAR_ROUTE id.toNat) (v.toNat &&& 0xC00000FF)))

/-- The role of a port: 0 DISABLED, 1 MASTER, 2 SLAVE. -/
def State.ptpRole (s : State) (g : Nat) : Nat := s.fld (Reg.GAR_PORT_PTP g) 31 30

/-- `PTP_ROLE_WRITE`: a role and an asymmetry; one SLAVE at most, and without PTP_BOUNDARY one port with a role at most (R542). -/
def execPtpRoleWrite (port : PortId) (v : W32) (s : State) : Host.Outcome State Fault Refusal :=
  let g := port.toNat
  let role := bits v.toNat 31 30
  let others := (List.range 16).filter (· ≠ g)
  .next <| s.whenReady <|
    if role = 3 ∨ (role = 2 ∧ others.any fun o => s.ptpRole o == 2)
        ∨ (role ≠ 0 ∧ ¬ s.feature featPtp ∧ others.any fun o => s.ptpRole o != 0) then s.routeRefused
    else
      let was := s.ptpRole g
      let s := s.setReg (Reg.GAR_PORT_PTP g) (v.toNat &&& 0xC000FFFF)
      let s := if was = 2 ∧ role ≠ 2 then
          (s.setReg (Reg.GAR_PORT_DELAY g) 0).onPort g fun q =>
            { q with syncRx := none, path := none, delayTx := none, delay := 0 }
        else s
      let slave := (List.range 16).find? fun o => s.ptpRole o == 2
      s.setFld Reg.GAR_PTP_STATUS 4 0 (match slave with | some o => 16 + o | none => 0)

/-! ### Bulk transfers (R538 to R541) -/

/-- The range of a context that admits a bulk transfer of `n` bytes at a device address (R540, R541). -/
def State.bulkRange (s : State) (en ctx a n : Nat) (perm : Range → Bool) : Bool :=
  bit (s.reg Reg.GAR_BULK_CTRL) en && (s.ctx ctx).state != .free && (((s.ctx ctx).rangeAt a n).map perm).getD false

/-- A bulk packet refused (R539). -/
def State.bulkRefuse (s : State) (p : Packet) : State := (s.raise { src := 0x3D, code := Code.BULK_REFUSED }).nackFor p Code.BULK_REFUSED

/-- `BULK_READ`: up to 1 MiB of a range of the serving context is answered in BULK_DATA packets of up to 4 KiB (R538, R540). -/
def execBulkRead (port : Option PortId) (p : Packet) (s : State) : Host.Outcome State Fault Refusal :=
  .next (s.arriveDevice port p .bulkRead fun s =>
    let a := p.dest.toNat + p.offset.toNat
    let n := p.bytes.toNat
    if n ≤ 0x100000 ∧ s.bulkRange 31 (s.fld Reg.GAR_BULK_CTRL 23 12) a n (·.rd) then
      let s := (s.meetErrors a n).each (List.range (ceilDiv n 4096)) fun s i =>
        let k := min 4096 (n - 4096 * i)
        s.post { p.reply .bulkData s.frame with
          offset := p.offset + BitVec.ofNat 64 (4096 * i), bytes := BitVec.ofNat 32 k, data := s.bytesAt (a + 4096 * i) k }
      s.count64 Reg.GAR_BULK_SERVED n
    else s.bulkRefuse p)

/-- The load that waits for the data of a packet. -/
def State.loadFor (s : State) (p : Packet) : Option (Nat × Load) :=
  (s.ctxs.flatMap fun e => (e.2.loads.filter fun l => l.garrid && l.xfer == p.xfer && l.peer == p.sdev.toNat).map
    fun l => (e.1, l)).head?

/-- `BULK_DATA`: the data of a load goes into its staging range; unsolicited data is written where RECV_CTX admits it; other data
is refused (R538, R539, R541). -/
def execBulkData (port : Option PortId) (p : Packet) (s : State) : Host.Outcome State Fault Refusal :=
  .next (s.arriveDevice port p .bulkData fun s =>
    let n := p.data.length
    match s.loadFor p with
    | some (c, l) =>
      if l.bytes < p.offset.toNat + n then s
      else
        (s.storeHbm (65536 * l.staging + p.offset.toNat) p.data).onCtx c fun x =>
          { x with loads := x.loads.map fun y => if y = l then { l with got := l.got + n } else y }
    | none =>
      let a := p.dest.toNat + p.offset.toNat
      let c := s.fld Reg.GAR_BULK_CTRL 11 0
      if s.bulkRange 30 c a n (·.wr) then
        (s.storeFor ⟨none, 0, some c, 2⟩ (p.data.zipIdx.map fun b => (a + b.2, b.1))).count64 Reg.GAR_BULK_RECEIVED n
      else s.bulkRefuse p)

/-- A transfer that was refused ends, and its command completes with BULK_REFUSED (R539). -/
def State.transferRefused (s : State) (p : Packet) : State :=
  match s.loadFor p with
  | some (c, l) => s.failLoad c l Code.BULK_REFUSED
  | none =>
    match s.ctxs.find? fun e => match e.2.pkg with
      | some k => k.xfer == some p.xfer && k.peer == p.sdev.toNat
      | none => false with
    | some (c, x) => match x.pkg with
      | some k => (s.onCtx c fun x => { x with pkg := none }).done k.cmd Code.BULK_REFUSED
      | none => s
    | none => s

/-- `NACK`: one with BULK_REFUSED ends a transfer; any other answers a packet of a core (R362, R365, R532, R539). -/
def execNack (port : Option PortId) (p : Packet) (s : State) : Host.Outcome State Fault Refusal :=
  .next <|
    if p.code.toNat = Code.BULK_REFUSED then s.arriveDevice port p .nack fun s => s.transferRefused p
    else s.arrive port p .nack fun s => s.coreNack p

/-! ### PTP (R542 to R545) -/

/-- The time of a PTP slot that leaves or enters a port now, with the latency of the port taken out (R544). -/
def State.ptpOut (s : State) (g : Nat) : Int := s.clk.time + Config.ptpLatency (2 * g)
def State.ptpIn (s : State) (g : Nat) : Int := (s.clk.time : Int) - Config.ptpLatency (2 * g + 1)

/-- A correctionField, and the asymmetry of a port, in units of the counter. -/
def corrUnits (m : PtpMsg) : Int := 7000000 * sext 64 m.correction.toNat
def State.asym (s : State) (g : Nat) : Int := 458752000 * sext 16 (s.reg (Reg.GAR_PORT_PTP g))

/-- A message whose timestamp is an instant: its whole ns, and the fraction in correctionField with a sign (R544). -/
def stamped (m : PtpMsg) (t : Int) (sign : Int) : PtpMsg :=
  let u := t.toNat
  let ns := u / unitsPerNs
  { m with
    sec := BitVec.ofNat 48 (ns / 1000000000), ns := BitVec.ofNat 32 (ns % 1000000000)
    correction := m.correction + BitVec.ofInt 64 (sign * ((u % unitsPerNs / 7000000 : Nat) : Int)) }

/-- The instant of a message's timestamp. -/
def ptpTime (m : PtpMsg) : Int := (unitsPerNs * (1000000000 * m.sec.toNat + m.ns.toNat) : Nat)

/-- A PTP message of a type that a port of a role takes in: messages of other types, domains or SDOs are discarded and
counted (R543). -/
def State.ptpTake (s : State) (g : Nat) (m : PtpMsg) (type role : Nat) (k : State → State) : State :=
  if ¬ s.portUp g then s
  else if m.type.toNat ∉ [0, 1, 8, 9] ∨ m.sdo ≠ 0 ∨ m.domain.toNat ≠ s.fld Reg.GAR_PTP_CFG 15 8 then s.count Reg.GAR_PTP_DISCARDS 1
  else if m.type.toNat = type ∧ s.ptpRole g = role then k s
  else s

/-- A message of this device. -/
def State.ptpMsg (s : State) (type seq : Nat) : PtpMsg :=
  { type := BitVec.ofNat 4 type, domain := BitVec.ofNat 8 (s.fld Reg.GAR_PTP_CFG 15 8), seq := BitVec.ofNat 16 seq }

/-- `SYNC_INTERVAL`: a MASTER port sends Sync and Follow_Up, a SLAVE port Delay_Req (R543). -/
def execSyncInterval (port : PortId) (s : State) : Host.Outcome State Fault Refusal :=
  let g := port.toNat
  let q := s.port g
  .next <|
    if ¬ s.portUp g then s
    else if s.ptpRole g = 1 then
      let s := s.emit (.ptp g (s.ptpMsg 0 q.syncSeq))
      (s.emit (.ptp g (stamped (s.ptpMsg 8 q.syncSeq) (s.ptpOut g) 1))).onPort g fun q =>
        { q with syncSeq := (q.syncSeq + 1) % 65536 }
    else if s.ptpRole g = 2 then
      let corr := BitVec.ofInt 64 (-(s.asym g) / 7000000)
      (s.emit (.ptp g { s.ptpMsg 1 q.delaySeq with correction := corr })).onPort g fun q =>
        { q with delaySeq := (q.delaySeq + 1) % 65536, delayTx := some (q.delaySeq, s.ptpOut g) }
    else s

/-- `SYNC`: a Sync is timestamped at the SLAVE port; the source is there (R543 to R545). -/
def execSync (port : PortId) (m : PtpMsg) (s : State) : Host.Outcome State Fault Refusal :=
  let g := port.toNat
  .next (s.ptpTake g m 0 2 fun s =>
    ({ s with clk := { s.clk with ptpLost := false } } : State).onPort g fun q =>
      { q with syncRx := some (m.seq.toNat, s.ptpIn g - corrUnits m - s.asym g) })

/-- `FOLLOW_UP`: the Follow_Up of the last Sync gives the path from the master and, less the mean path delay, the offset that
disciplines the counter when SOURCE names PTP (R543, R545). -/
def execFollowUp (port : PortId) (m : PtpMsg) (s : State) : Host.Outcome State Fault Refusal :=
  let g := port.toNat
  .next (s.ptpTake g m 8 2 fun s =>
    match (s.port g).syncRx with
    | some (seq, t2) =>
      if seq ≠ m.seq.toNat then s
      else
        let path := t2 - ptpTime m - corrUnits m
        let s := s.onPort g fun q => { q with path := some path, syncRx := none }
        if s.source = 1 ∨ s.source = 3 then s.offsetSample (path - (s.port g).delay) else s
    | none => s)

/-- `DELAY_REQ`: a MASTER port answers with Delay_Resp, which carries the time of arrival (R543). -/
def execDelayReq (port : PortId) (m : PtpMsg) (s : State) : Host.Outcome State Fault Refusal :=
  let g := port.toNat
  .next (s.ptpTake g m 1 1 fun s =>
    s.emit (.ptp g (stamped { s.ptpMsg 9 m.seq.toNat with correction := m.correction } (s.ptpIn g) (-1))))

/-- `DELAY_RESP`: the answer to the last Delay_Req gives the mean path delay (R543, R545). -/
def execDelayResp (port : PortId) (m : PtpMsg) (s : State) : Host.Outcome State Fault Refusal :=
  let g := port.toNat
  .next (s.ptpTake g m 9 2 fun s =>
    match (s.port g).delayTx, (s.port g).path with
    | some (seq, t3), some path =>
      if seq ≠ m.seq.toNat then s
      else
        let d := (path + (ptpTime m - corrUnits m - t3)) / 2
        (s.onPort g fun q => { q with delay := d, delayTx := none }).setReg (Reg.GAR_PORT_DELAY g)
          (min 0xFFFFFFFF (d / unitsPerNs).toNat)
    | _, _ => s)

/-- `PTP_LOST`: no Sync for 8 Sync intervals at the SLAVE port: recorded, and the source that it is, is lost (R545, R684). -/
def execPtpLost (s : State) : Host.Outcome State Fault Refusal :=
  .next <|
    match (List.range 16).find? fun g => s.ptpRole g == 2 with
    | none => s
    | some g =>
      let s := (s.setFld Reg.GAR_PTP_STATUS 31 16 Code.PTP_LOST).portCode g 0x3C Code.PTP_LOST
      if s.source = 1 ∨ s.source = 3 then ({ s with clk := { s.clk with ptpLost := true } } : State).sourceLost else s

end Sys2Proof.Machine
end

