-- ==== Sys2Proof/Machine/MemoryUnit.lean ====
section
/-! DEFINITION. The memory block of the host's registers: patrol scrub, channel states and tests, the traffic generators, and
lookups of the ownership table (09 R308, R317, R324 to R332). -/
namespace Sys2Proof.Machine

/-! ### Scrubs (R324 to R326) -/

/-- Whether the scrubber reads a key: the mezzanine and the alcoves always; HBM outside the reserved area where the patrol
scrub runs and the channel is in SERVICE (R326). -/
def State.scrubs (s : State) (k : Nat) : Bool :=
  spaceOf k ≠ 2
  || (bit (s.reg Reg.MEM_SCRUB_CTRL) 8 && !reservedPage (k / 65536) && s.chState (channelOf k) == 2)

/-- Upsets that have struck stored bits since: latent until something reads them. -/
def State.strike (s : State) (upsets : List (W64 × Bool)) : State :=
  { s with mem := { s.mem with
      ecc := upsets.foldl (fun l u =>
        let k := u.1.toNat / eccUnit u.1.toNat * eccUnit u.1.toNat
        let word := u.1.toNat / 8 * 8
        match l.find? fun e : EccError => e.key == k with
        | some e => l.erase e ++ [{ e with uncorrectable := true, struck := e.struck ++ [word] }]
        | none => l ++ [⟨k, u.2, false, [word]⟩]) s.mem.ecc } }

/-- `PATROL_SCRUB`: the scrubbers read `bytes` bytes from a key, after upsets have struck (a second one in a word or sector
makes it uncorrectable): errors are corrected, or poisoned and reported, tagged with the page's owner (R324 to R326).
`passEnd` says that a pass over HBM is complete. -/
def execPatrolScrub (key : W64) (bytes : W32) (upsets : List (W64 × Bool)) (passEnd : Bool) (s : State) :
    Host.Outcome State Fault Refusal :=
  let s := s.strike upsets
  let hit := s.mem.ecc.filter fun e => e.hits key.toNat bytes.toNat && !e.found && s.scrubs e.key
  let s := s.each hit fun s e =>
    let s := s.meetErrors e.key 1
    if e.uncorrectable then
      let who : Who := ⟨none, hallOfKey e.key, s.ueCtx e.key, 6⟩
      s.memFault who Code.MEM_UE e.key false (s.ueCtx e.key) (s.ueCtx e.key)
    else s
  .next (if passEnd ∧ bit (s.reg Reg.MEM_SCRUB_CTRL) 8 then
      s.setReg Reg.MEM_SCRUB_PASS ((s.reg Reg.MEM_SCRUB_PASS + 1) % 2 ^ 32)
    else s)

/-! ### Channel states (R308, R327, R328) -/

def State.setChState (s : State) (c v : Nat) : State := (s.setFld (Reg.MEM_CH_STATUS c) 2 0 v).settleRegion (c / 16)

/-- `CHANNEL_TRAINING_END`: the training of a channel ends in SERVICE, in phase HBM of bring-up in TEST (R673), or in FAILED,
which is reported (R308). -/
def execChannelTrainingEnd (ch : BitVec 8) (ok : Bool) (s : State) : Host.Outcome State Fault Refusal :=
  let c := ch.toNat
  .next <|
    if s.chState c ≠ 1 then s
    else if ok then s.setChState c (if s.fld Reg.DEV_BRINGUP 31 28 = 2 then 3 else 2)
    else (s.setChState c 4).raise { src := 0x14, hall := c / 16, code := Code.MEM_CHANNEL_DOWN, inst := c }

/-- A TEST or START command refused (R328, R329). -/
def State.tgRefused (s : State) (c : Nat) : State := s.setFld (Reg.MEM_TG_STATUS c) 31 16 Code.MEM_TG_REFUSED

/-- Whether a region holds a page that is owned (R328). -/
def State.regionOwned (s : State) (r : Nat) : Bool :=
  s.mem.pot.any fun x => x.first / 2 ^ 20 ≤ r && r ≤ (x.first + x.count - 1) / 2 ^ 20 && x.entry.getLsbD 63

/-- `CHANNEL_TEST_ENTER`: a write of 1 to TEST takes the channel from SERVICE to TEST, or is refused (R328); without the feature
CHANNEL_TEST the register stays as it is (R475). -/
def execChannelTestEnter (ch : BitVec 8) (s : State) : Host.Outcome State Fault Refusal :=
  let c := ch.toNat
  .next <| s.whenReady <|
    if ¬ s.feature featTest then s.featureCode Code.FEATURE_NOT_ACCEPTED
    else if s.chState c = 2 ∧ ¬ s.regionOwned (c / 16) then (s.setFld (Reg.MEM_CH_CTRL c) 0 0 1).setChState c 3
    else (s.setFld (Reg.MEM_CH_CTRL c) 0 0 0).tgRefused c

/-- `CHANNEL_TEST_EXIT`: a write of 0 to TEST takes the channel back to SERVICE; a run in progress ends, and the data area of
the region is undefined (R327, R328). -/
def execChannelTestExit (ch : BitVec 8) (s : State) : Host.Outcome State Fault Refusal :=
  let c := ch.toNat
  .next <| s.whenReady <|
    let s := s.setFld (Reg.MEM_CH_CTRL c) 0 0 0
    if s.chState c ≠ 3 then s
    else
      let r := c / 16
      let busy := (mapGet none s.mem.tg c).isSome
      let s := if busy then s.setFld (Reg.MEM_TG_STATUS c) 1 0 2 else s
      let s : State := { s with mem := { s.mem with tg := mapSet none s.mem.tg c none } }
      (s.forget (2 ^ 36 * r) (2 ^ 36 * r + 0xFFE000000)).setChState c 2

/-! ### Traffic generators (R329 to R332) -/

/-- A PRBS register of `n` bits with a second tap, advanced by one bit: the bit that it gives and what it holds then, its
oldest bit lowest. -/
def prbsStep (n tap v : Nat) : Bool × Nat :=
  let b := v.testBit 0
  let new := v.testBit 0 != v.testBit (n - tap)
  (b, v / 2 + b2n new * 2 ^ (n - 1))

/-- `k` bits of a PRBS sequence from a register, the first one lowest, and the register after them. -/
def prbsBits (n tap : Nat) : Nat → Nat → Nat × Nat
  | 0, v => (0, v)
  | k + 1, v =>
    let (b, v') := prbsStep n tap v
    let (r, v'') := prbsBits n tap k v'
    (b2n b + 2 * r, v'')

/-- Word `w` of the PRBS burst `i` bursts after START (Table 9.7). A seed of 0 is used as 1. -/
def prbsWord (n tap seed i w : Nat) : Nat :=
  let v := if seed % 2 ^ n = 0 then 1 else seed % 2 ^ n
  (prbsBits n tap 64 (prbsBits n tap (512 * i + 64 * w) v).2).1

/-- Word `w` of the burst at local address `l` (Table 9.7). -/
def TgRun.word (t : TgRun) (l w : Nat) : Nat :=
  let ones := 0xFFFFFFFFFFFFFFFF
  let walk := 2 ^ ((l / 64 * 8 + w) % 64)
  match bits t.ctrl 3 0 with
  | 0 => 0
  | 1 => ones
  | 2 => if bit l 6 then 0xAAAAAAAAAAAAAAAA else 0x5555555555555555
  | 3 => walk
  | 4 => ones - walk
  | 5 => 2 ^ 32 * ((0xFFFFFFFF - (l + 8 * w) % 2 ^ 32)) + (l + 8 * w) % 2 ^ 32
  | 6 => prbsWord 7 6 t.seed ((l - t.first) / 64) w
  | 7 => prbsWord 31 28 t.seed ((l - t.first) / 64) w
  | _ => t.user

/-- The bytes of a burst. -/
def TgRun.burst (t : TgRun) (l : Nat) : List Byte := (List.range 8).flatMap fun w => leBytes 8 (t.word l w)

/-- The number of bursts of the range. -/
def TgRun.count (t : TgRun) : Nat := (t.last - t.first) / 64 + 1

/-- The place of burst `i` of a random pass: the bursts sorted by keys that the manual leaves open. -/
def walkPlace (seed pass n i : Nat) : Nat :=
  (((List.range n).foldl (fun l x =>
    (l.filter fun y => decide (Config.walkKey seed pass y ≤ Config.walkKey seed pass x)) ++ [x]
      ++ l.filter fun y => decide (Config.walkKey seed pass x < Config.walkKey seed pass y)) [])[i]?).getD 0

/-- The local address of the `i`-th address of a walk (R331). -/
def TgRun.addr (t : TgRun) (i : Nat) : Nat :=
  let n := t.count
  t.first + 64 * (match bits t.ctrl 7 6 with
    | 0 => i % n
    | 1 => n - 1 - i % n
    | 2 => (i * t.stride) % n
    | _ => walkPlace t.seed (i / n) n (i % n))

/-- A run in progress: the state, the addresses taken so far, and the checker's findings. -/
structure TgAcc where
  s : State
  next : Nat := 0
  errs : Nat := 0
  first : Option (Nat × Nat × Nat) := none

/-- A burst written. -/
def TgAcc.write (a : TgAcc) (t : TgRun) (c l : Nat) : TgAcc :=
  { a with s := a.s.writeBytes (addrOf c l) (t.burst l) }

/-- A burst read and checked: a word of an uncorrectable sector that was struck, and with ECC_BYPASS any word that was, is a mismatch
whose bits are open (R332). -/
def TgAcc.check (a : TgAcc) (t : TgRun) (c l : Nat) : TgAcc :=
  let k := addrOf c l
  let errs := a.s.mem.ecc.filter fun e => e.hits k 64 && (e.uncorrectable || bit t.ctrl 13)
  let struck := (errs.flatMap fun e => if e.struck = [] then [e.key] else e.struck).map fun x => (x - k) / 8
  let bad (w : Nat) : Bool := a.s.natAt (k + 8 * w) 8 ≠ t.word l w
  let actual (w : Nat) : Nat := if struck.contains w then a.s.freeValue.toNat else a.s.natAt (k + 8 * w) 8
  let wrong := (List.range 8).filter fun w => bad w || struck.contains w
  let s := (if struck = [] then a.s else a.s.drawn).meetErrors k 64
  match wrong with
  | [] => { a with s := s }
  | w :: _ => { a with s := s, errs := a.errs + 1, first := a.first.or (some (l, t.word l w, actual w)) }

/-- The next address is due. -/
def TgAcc.step (a : TgAcc) : TgAcc := { a with next := a.next + 1 }

/-- One operation of a run (R331). -/
def TgRun.op (t : TgRun) (c : Nat) (a : TgAcc) (i : Nat) : TgAcc :=
  let l := t.addr a.next
  match bits t.ctrl 5 4 with
  | 0 => (a.write t c l).step
  | 1 => (a.check t c l).step
  | 2 => ((a.write t c l).check t c l).step
  | _ =>
    if i % 16 < 16 - bits t.ctrl 12 8 then (a.write t c l).step
    else if a.next < 64 then a
    else a.check t c (t.addr (a.next - 64))

/-- A run brought to `n` operations, with what the registers show of it: the first mismatch is recorded and reported (R331, R332). -/
def State.tgAdvance (s : State) (c : Nat) (t : TgRun) (n : Nat) : State :=
  let a := (List.range (n - t.done)).foldl (fun a i => t.op c a (t.done + i)) { s := s, next := t.next, errs := t.errs, first := t.mism }
  let t' := { t with done := max t.done n, next := a.next, errs := a.errs, mism := a.first }
  let s : State := { a.s with mem := { a.s.mem with tg := mapSet none a.s.mem.tg c (some t') } }
  let s := (s.setReg (Reg.MEM_TG_DONE c) t'.done).setReg (Reg.MEM_TG_CYCLES c) (s.cycles - t.began)
  let s := s.setReg (Reg.MEM_TG_ERRS c) (min a.errs 0xFFFFFFFF)
  match t.mism, a.first with
  | none, some (l, exp, act) =>
    let s := (s.setFld (Reg.MEM_TG_STATUS c) 31 16 Code.MEM_TG_MISMATCH).setFld (Reg.MEM_TG_STATUS c) 2 2 1
    let s := ((s.setReg (Reg.MEM_TG_ERR_ADDR c) l).setReg (Reg.MEM_TG_ERR_EXP c) exp).setReg (Reg.MEM_TG_ERR_ACT c) act
    s.raise { src := 0x4A, code := Code.MEM_TG_MISMATCH, inst := c }
  | _, _ => s

/-- What a read of a channel's registers finds of a run in progress: an open number of further operations has been performed (log
entry 113). -/
def State.tgCatch (s : State) (a : Nat) : State :=
  let c := (a - 0x2010000) / 0x100
  if a < 0x2010000 ∨ 0x2020000 ≤ a then s
  else match mapGet none s.mem.tg c with
    | none => s
    | some t =>
      let left := if t.ops = 0 then 2 ^ 64 else t.ops - t.done
      s.drawn.tgAdvance c t (t.done + s.freeValue.toNat % max 1 left)

/-- `TG_START`: a write of START to MEM_TG_CTRL sets its fields and starts a run with the current settings, or is refused
(R327, R329, R330). MEM_TG_OPS and the results are cleared (Table 9.12). -/
def execTgStart (ch : BitVec 8) (v : W32) (s : State) : Host.Outcome State Fault Refusal :=
  let c := ch.toNat
  let t : TgRun :=
    { ctrl := bits v.toNat 13 0, seed := s.reg (Reg.MEM_TG_SEED c), user := s.reg (Reg.MEM_TG_USER c)
      first := s.reg (Reg.MEM_TG_START c), last := s.reg (Reg.MEM_TG_END c), stride := s.reg (Reg.MEM_TG_STRIDE c)
      ops := s.reg (Reg.MEM_TG_OPS c), began := s.cycles }
  .next <| s.whenReady <|
    let s := s.setReg (Reg.MEM_TG_CTRL c) (bits v.toNat 13 0)
    if ¬ bit v.toNat 31 then s
    else if s.chState c ≠ 3 ∨ (mapGet none s.mem.tg c).isSome ∨ t.first % 64 ≠ 0 ∨ t.last % 64 ≠ 0 ∨ t.last < t.first
      ∨ 0xFFDFFFFF < t.last ∨ 8 < bits t.ctrl 3 0 then s.tgRefused c
    else
      let s := s.each [Reg.MEM_TG_OPS c, Reg.MEM_TG_DONE c, Reg.MEM_TG_CYCLES c, Reg.MEM_TG_ERRS c] fun s a => s.setReg a 0
      let s := s.setFld (Reg.MEM_TG_STATUS c) 2 0 1
      { s with mem := { s.mem with tg := mapSet none s.mem.tg c (some t) } }

/-- `TG_STOP`: a write of STOP ends the run after the burst in progress. -/
def execTgStop (ch : BitVec 8) (s : State) : Host.Outcome State Fault Refusal :=
  let c := ch.toNat
  .next <| s.whenReady { s with mem := { s.mem with
    tg := mapSet none s.mem.tg c ((mapGet none s.mem.tg c).map ({ · with stopping := true })) } }

/-- `TG_RUN_END`: a run ends after its operations, or fewer when a STOP ends it; what it wrote stands, and the checker's
findings are latched and reported (R331, R332). -/
def execTgRunEnd (ch : BitVec 8) (ops : W64) (s : State) : Host.Outcome State Fault Refusal :=
  let c := ch.toNat
  .next <|
    match mapGet none s.mem.tg c with
    | none => s
    | some t =>
      let n := ops.toNat
      if n < t.done ∨ (¬ (n = t.ops ∧ t.ops ≠ 0) ∧ ¬ (t.stopping ∧ (t.ops = 0 ∨ n < t.ops))) then s
      else
        let s := (s.tgAdvance c t n).setFld (Reg.MEM_TG_STATUS c) 1 0 2
        { s with mem := { s.mem with tg := mapSet none s.mem.tg c none } }

/-! ### Lookups of the ownership table (R317) -/

/-- A write of MEM_POT_QUERY (Table 9.10). -/
def State.writePotQuery (s : State) (page : Nat) : State := { s with mem := { s.mem with potQuery := some page } }

/-- `POT_QUERY`: a write of MEM_POT_QUERY starts a lookup; a further one replaces it (Table 9.10). -/
def execPotQuery (page : BitVec 24) (s : State) : Host.Outcome State Fault Refusal :=
  .next <| s.whenReady ((s.dropHalves Reg.MEM_POT_QUERY).writePotQuery page.toNat)

/-- `POT_LOOKUP_DONE`: the lookup loads the entry as it stands into MEM_POT_ENTRY. -/
def execPotLookupDone (s : State) : Host.Outcome State Fault Refusal :=
  .next <|
    match s.mem.potQuery with
    | none => s
    | some p => ({ s with mem := { s.mem with potQuery := none } } : State).setReg Reg.MEM_POT_ENTRY (s.potEntry p)

end Sys2Proof.Machine
end

