-- ==== Sys2Proof/Machine/Pins.lean ====
section
/-! DEFINITION. The pins of the module: power sequencing, the cable connectors, and the SMBus target (20 R640 to R667). -/
namespace Sys2Proof.Machine

/-! ### Power sequencing (R643 to R649) -/

/-- The module turns itself off: every state is lost but what the flash holds, where a live copy being written is lost with
the write (R607, R645), the cables that are plugged and the level of PWR_BRAKE_N. PWR_CYCLE_REQ_N is held until the input is
removed (R648, R667). -/
def State.powerOff (s : State) : State :=
  { State.reset with
    pending := s.pending
    out := s.out
    free := s.free
    serial := s.serial
    regs := []
    clk := { mono := s.clk.mono }
    powerCycleReq := s.powerCycleReq
    sec := { live0 := s.sec.live0, live1 := s.sec.live1, flash := s.sec.flash }
    power := { good := false, en := s.power.en, brake := s.power.brake }
    cables := (List.range 4).foldl (fun m d =>
      let k : Cable := mapGet {} s.cables d
      mapSet {} m d { present := k.present, kind := k.kind }) [] }

/-- `PWR_EN_RISE`: the rails start to ramp; an edge that comes too early does so once PWR_EN had its second (R644, R647). -/
def execPwrEnRise (s : State) : Host.Outcome State Fault Refusal :=
  .next <|
    if s.power.en ∨ s.power.good then s
    else { s with power := { s.power with en := true, ramping := !s.power.lockout } }

/-- `PWR_GOOD_RELEASE`: the rails are in regulation: PWR_GOOD is high, cables get VCBL, and bring-up starts with POWERUP 1 (R644,
R661, R668, R681). -/
def execPwrGoodRelease (s : State) : Host.Outcome State Fault Refusal :=
  .next <|
    if ¬ s.power.ramping then s
    else
      { s with
        regs := State.reset.regs
        power := { good := true, en := true, brake := s.power.brake }
        bring := { began := s.monoNs }
        cables := (List.range 4).foldl (fun m d =>
          let k : Cable := mapGet {} s.cables d
          mapSet {} m d { k with vcbl := k.present }) [] }

/-- `RAIL_RAMP_TIMEOUT`: a rail is not in regulation after 50 ms: the rails turn off, and PWR_EN is ignored until it has been
low (R644). -/
def execRailRampTimeout (s : State) : Host.Outcome State Fault Refusal :=
  .next <|
    if ¬ s.power.ramping then s else { s with power := { s.power with ramping := false, lockout := true } }

/-- `PWR_EN_FALL`: the module powers down (R645). -/
def execPwrEnFall (s : State) : Host.Outcome State Fault Refusal :=
  let off := { (if s.power.good then s.powerOff else s) with
    power := { (if s.power.good then s.powerOff else s).power with en := false, ramping := false, lockout := false } }
  .next off

/-- `INPUT_POWER_OFF`: the input has been below 44.0 V for 100 µs: the module powers itself off, whatever PWR_EN holds, and
releases PWR_CYCLE_REQ_N (R646, R648). -/
def execInputPowerOff (s : State) : Host.Outcome State Fault Refusal :=
  .next { (if s.power.good then s.powerOff else s) with powerCycleReq := false }

/-- `REFCLK_LOSS`: the link reference oscillator is lost (R654). -/
def execRefclkLoss (s : State) : Host.Outcome State Fault Refusal :=
  .next (if s.power.good then s.raise { src := 0x5F } else s)

/-! ### Cable connectors (R661 to R664) -/

/-- The ports of a connector. -/
def portsOf (d : Nat) : List Nat := (List.range 4).map fun i => 4 * d + i

def State.cable (s : State) (d : Nat) : Cable := mapGet {} s.cables d
def State.onCable (s : State) (d : Nat) (f : Cable → Cable) : State := { s with cables := mapSet {} s.cables d (f (s.cable d)) }

/-- `CBL_PRSNT_N_LOW`: a cable is plugged: it gets VCBL, and the ports of the connector that wait for it train. `kind` is what
its management memory declares (R661 to R663). -/
def execCblPrsntNLow (cbl : BitVec 2) (kind : BitVec 2) (s : State) : Host.Outcome State Fault Refusal :=
  let d := cbl.toNat
  .next <|
    if (s.cable d).present then s
    else
      let s := s.onCable d fun k => { k with present := true, vcbl := s.power.good, kind := min 2 kind.toNat }
      s.startPorts (portsOf d)

/-- A port that trains stops doing so, without a failure. -/
def State.stopTraining (s : State) (g : Nat) : State :=
  if s.portState g = 2 then s.setFld (Reg.GAR_PORT_STATUS g) 2 0 1 else s

/-- `CBL_PRSNT_N_HIGH`: a cable is removed: VCBL is off, and the ports of the connector leave service (R661, R664). -/
def execCblPrsntNHigh (cbl : BitVec 2) (s : State) : Host.Outcome State Fault Refusal :=
  let d := cbl.toNat
  .next <|
    let s := s.onCable d fun k => { k with present := false, vcbl := false }
    s.each (portsOf d) fun s g => if s.portUp g then s.portLeaves g 1 else s.stopTraining g

/-- `VCBL_OVERLOAD`: a connector draws more than 3.0 A: VCBL turns off until the cable has been removed, and its enabled ports
enter DOWN with LINK_TRAIN_FAIL (R661). -/
def execVcblOverload (cbl : BitVec 2) (s : State) : Host.Outcome State Fault Refusal :=
  let d := cbl.toNat
  .next <|
    if ¬ (s.cable d).vcbl then s
    else
      let s := s.onCable d fun k => { k with vcbl := false }
      s.each ((portsOf d).filter fun g => s.portState g != 0 && s.portState g != 5) fun s g =>
        (if s.portUp g then s.portLeaves g 1 else s.stopTraining g).portCode g 0x38 Code.LINK_TRAIN_FAIL

/-! ### SMBus (R658 to R660, Table 20.7) -/

/-- Whether the SMBus target answers (R659). -/
def State.smbusOn (s : State) : Bool := s.power.good && 1 ≤ s.fld Reg.SEC_STATUS 2 0 && s.fld Reg.SEC_STATUS 2 0 ≤ 3

/-- What the target does when it answers a read: the bytes, and a change. An address that is not acknowledged changes nothing. -/
def State.smbusRead (s : State) (bs : List Byte) : State := if s.smbusOn then s.emit (.smbus bs) else s

/-- `STATUS`: the boot state, the error pin, the brake and the class. -/
def execStatus (s : State) : Host.Outcome State Fault Refusal :=
  .next (s.smbusRead (leBytes 2 (s.fld Reg.SEC_STATUS 2 0 + 8 * b2n s.errNLow + 16 * s.fld Reg.PWR_STATUS 16 16
    + 32 * s.fld Reg.PWR_STATUS 2 0)))

/-- `INPUT`: PWR_INPUT. -/
def execInput (s : State) : Host.Outcome State Fault Refusal := .next (s.smbusRead (leBytes 4 (s.reg Reg.PWR_INPUT)))

/-- `INPUT_PEAK`: the highest 10 µs input power since the last SMBus read of it. -/
def execInputPeak (s : State) : Host.Outcome State Fault Refusal :=
  .next <|
    if s.smbusOn then
      { s.smbusRead (leBytes 2 s.power.smbPeak) with power := { s.power with smbPeak := 0 } }
    else s

/-- `ENERGY`: PWR_ENERGY. -/
def execEnergy (s : State) : Host.Outcome State Fault Refusal := .next (s.smbusRead (leBytes 8 (s.reg Reg.PWR_ENERGY)))

/-- `FAULTS`: FLT_STATUS. -/
def execFaults (s : State) : Host.Outcome State Fault Refusal := .next (s.smbusRead (leBytes 4 s.fltStatus))

/-- `TEMP_n`: the temperature of a sensor, 0x8000 before it has been read; other codes are not acknowledged. -/
def execTempN (n : BitVec 5) (s : State) : Host.Outcome State Fault Refusal :=
  let t := s.reg (Reg.PWR_TEMP n.toNat)
  .next (if n.toNat ≤ 29 then s.smbusRead (leBytes 2 (if bit t 31 then t else 0x8000)) else s)

/-- `RAIL_r`: PWR_RAIL of a rail. -/
def execRailN (r : BitVec 6) (s : State) : Host.Outcome State Fault Refusal :=
  .next (if r.toNat ≤ 33 then s.smbusRead (leBytes 8 (s.reg (Reg.PWR_RAIL r.toNat))) else s)

/-- `SERIAL`: SEC_SERIAL. -/
def execSerial (s : State) : Host.Outcome State Fault Refusal := .next (s.smbusRead (leBytes 8 (s.reg Reg.SEC_SERIAL)))

/-- `PART`: the ASCII bytes of IET-4000-1T. -/
def execPart (s : State) : Host.Outcome State Fault Refusal :=
  .next (s.smbusRead [0x49, 0x45, 0x54, 0x2D, 0x34, 0x30, 0x30, 0x30, 0x2D, 0x31, 0x54])

/-- `VERSIONS`: the VERSION of image slots 0 to 3. -/
def execVersions (s : State) : Host.Outcome State Fault Refusal := .next (s.smbusRead s.versions)

/-- `ALERT_RESPONSE`: the module that holds SMB_ALERT_N low answers with its address and releases it (R660). -/
def execAlertResponse (s : State) : Host.Outcome State Fault Refusal :=
  .next <|
    if s.smbusOn ∧ s.power.alert then
      { s.smbusRead [BitVec.ofNat 8 (2 * (0x58 + Config.smbAddr.toNat))] with power := { s.power with alert := false } }
    else s

end Sys2Proof.Machine
end

