-- ==== Sys2Proof/Machine/RegAccess.lean ====
section
/-! DEFINITION. Register accesses through BAR0: which offsets answer, what a read returns and does, what a write does, and accesses by
halves (00 R12 to R21, R683; 21 R671; 14 R505). -/
namespace Sys2Proof.Machine

/-! ### Which registers answer -/

/-- Whether an offset of the PF's BAR0 answers in the phase of bring-up (R604, R671). -/
def State.pfAnswers (s : State) (o : Nat) : Bool :=
  let sec := decide (0x3300000 ≤ o ∧ o < 0x3400000)
  s.power.good && (s.phase == 7 || o < 12 || sec
    || (s.phase != 8 && ((0x10 ≤ o && o < 0x18) || decide (0x3000000 ≤ o ∧ o < 0x3200000))))

/-- Where a BAR0 offset of a function leads: an offset of the PF, or the place of a VF's register, whose offsets are those of the HST
registers and of the mailboxes (R505). Nothing where the offset does not answer. -/
def State.place? (s : State) (fn o : Nat) : Option Nat :=
  if fn = 0 then (if s.pfAnswers o then some o else none)
  else if ¬ s.ready ∨ ¬ s.pcie.vfEnable ∨ 16 < fn then none
  else if o < 0x100 then some (hst fn o)
  else if 0x10000 ≤ o ∧ o < 0x20000 then some (2 ^ 32 * fn + 0x280000 + (o - 0x10000))
  else none

/-- The row of the register at a place. -/
def rowAt (a : Nat) : Option RegRow := regRow (a % 2 ^ 32)

/-- Whether a byte belongs to a register. -/
def inRegister (a : Nat) : Bool :=
  (rowAt (a / 4 * 4)).isSome || (rowAt (a / 8 * 8)).any fun r => r.width == 8

/-- What an access of some bytes at a place meets: a whole register, the low or the high half of one, no register at all, or it breaks
R13. -/
inductive Hit where
  | full (r : RegRow)
  | low (r : RegRow)
  | high (base : Nat) (r : RegRow)
  | nothing
  | broken
deriving DecidableEq, Repr

/-- How an access of `n` bytes at `a` is taken (R12, R13, R16, R17). -/
def hitOf (a n : Nat) : Hit :=
  let here := rowAt a
  let below := if 4 ≤ a % 2 ^ 32 then rowAt (a - 4) else none
  match here.filter (·.width == n), here.filter (fun r => r.width == 8 && n == 4), below.filter (fun r => r.width == 8 && n == 4) with
  | some r, _, _ => .full r
  | none, some r, _ => .low r
  | none, none, some r => .high (a - 4) r
  | none, none, none => if (List.range n).any fun i => inRegister (a + i) then .broken else .nothing

/-! ### Halves (R14, R15, R683) -/

def State.latchHigh (s : State) (a v : Nat) : State :=
  { s with latchedHigh := (a, BitVec.ofNat 32 (v / 2 ^ 32)) :: s.latchedHigh.filter (·.1 ≠ a) }

def State.holdLow (s : State) (a v : Nat) : State :=
  { s with heldLow := (a, BitVec.ofNat 32 v) :: s.heldLow.filter (·.1 ≠ a) }

/-- The latched high half of a register, and its held low half. -/
def State.latched (s : State) (a : Nat) : Option Nat := (s.latchedHigh.find? (·.1 == a)).map (·.2.toNat)
def State.held (s : State) (a : Nat) : Option Nat := (s.heldLow.find? (·.1 == a)).map (·.2.toNat)

/-! ### Reads -/

/-- The ring whose mailbox stands at a place (R476, R505). -/
def State.mboxAt (s : State) (a : Nat) : Option Nat := s.pageRing (a / 2 ^ 32) ((a % 2 ^ 32 - 0x280000) / 8)

/-- Whether a place is a mailbox. -/
def isMbox (a : Nat) : Bool := 0x280000 ≤ a % 2 ^ 32 && a % 2 ^ 32 < 0x300000

/-- The value that a read of the register at a place returns. -/
def State.readable (s : State) (a : Nat) : Nat :=
  if isMbox a then ((s.mboxAt a).map fun r => (s.mbox r).word).getD 0 else s.view a

/-- A register of access RC holding `v` (Table 0.4). -/
def State.setCount (s : State) (a v : Nat) : State :=
  if a = 0x3400020 then s.onCtx (s.fld Reg.CTX_SEL 11 0) fun x => { x with preempts := v }
  else if 0x340F020 ≤ a ∧ a < 0x340F030 then s.setGenCount (a - 0x340F000) v
  else s.setReg a v

/-- What a read does to the register: it clears one of access RC, which then holds what an event of the same cycle counts, and a
mailbox counts it (Table 0.4, R19, R500). -/
def State.readDone (s : State) (a : Nat) (r : RegRow) (same : Nat) : State :=
  if isMbox a then (match s.mboxAt a with | some ring => (s.mboxRead ring).2 | none => s)
  else if r.access = .rc then s.setCount a (same % 2 ^ (8 * r.width))
  else s

/-- A read of `n` bytes at a place: the data, and what it does. -/
def State.readAt (s : State) (fn a n same : Nat) : Nat × State :=
  let s := s.tgCatch a
  match hitOf a n with
  | .full r => (s.readable a, (s.readDone a r same).dropHalves a)
  | .low r =>
    let v := s.readable a
    (v % 2 ^ 32, (s.readDone a r same).latchHigh a v)
  | .high b _ =>
    match s.latched b with
    | some v => (v, { s with latchedHigh := s.latchedHigh.filter (·.1 ≠ b) })
    | none => (s.readable b / 2 ^ 32, s)
  | .nothing => (0, s)
  | .broken => (0, (s.hstCode fn Code.REG_ACCESS).raise { src := 0x41, code := Code.REG_ACCESS })

/-! ### Writes with a behaviour of their own -/

/-- The next state of an outcome that is one. -/
def State.next (s : State) (o : Host.Outcome State Fault Refusal) : State := match o with | .next t => t | _ => s

/-- A field [hi:lo] of a register takes the value that `v` has there, if that value is allowed. -/
def State.writeFld (s : State) (a hi lo v : Nat) (ok : Nat → Bool) : State :=
  if ok (bits v hi lo) then s.setFld a hi lo (bits v hi lo) else s

/-- The writable bits of a register, set from `v` (Table 0.4). -/
def State.writeMasked (s : State) (a : Nat) (r : RegRow) (v : Nat) : State :=
  s.setReg a ((v &&& r.rw) ||| (s.reg a &&& (2 ^ (8 * r.width) - 1 - r.rw)))

/-- DEV: the features and their lock (R472, R473). -/
def State.writeDev (s : State) (a : Nat) (r : RegRow) (v : Nat) : State :=
  if a = Reg.DEV_FEATURE_CTRL then
    (if s.locked then s.featureCode Code.FEATURE_LOCKED else if bit v 0 then s.next (execFeatureLock s) else s)
  else if s.locked then s.featureCode Code.FEATURE_LOCKED
  else s.writeMasked a r v

/-- FTK: the control, the captures and the frame configuration (R56, R57). -/
def State.writeFtk (s : State) (a : Nat) (r : RegRow) (v : Nat) : State :=
  if a = Reg.FTK_CTRL then s.writeFtkCtrl v
  else if a = Reg.FTK_SNAP then s.writeFtkSnap
  else if a = Reg.FTK_SET then s.writeFtkSet
  else if frameCfgReg a then s.writeFrameCfg a v
  else s.writeMasked a r v

/-- HST, of the PF or of a VF: the admin ring, the query, and the base of the PF's BAR4, a multiple of its size (Table 14.11). -/
def State.writeHst (s : State) (a : Nat) (r : RegRow) (v : Nat) : State :=
  let fn := a / 2 ^ 32
  let o := a % 2 ^ 32
  if o = Reg.HST_ADMIN_CFG then
    s.next ((if bit v 31 then execAdminRingEnable else execAdminRingDisable) (BitVec.ofNat 5 fn) (BitVec.ofNat 32 v) s)
  else if o = Reg.HST_RING_QUERY then s.next (execRingQuery (BitVec.ofNat 5 fn) (BitVec.ofNat 16 v) s)
  else if a = Reg.HST_BAR4_BASE ∧ (v &&& r.rw) % 2 ^ s.pcie.bar4Log2 ≠ 0 then s
  else s.writeMasked a r v

/-- HAL: the frame policy, the deadlock threshold, and the latch (R56, R363, R563). -/
def State.writeHal (s : State) (a : Nat) (r : RegRow) (v : Nat) : State :=
  let h := (a - 0x1000000) / 0x100000
  if frameCfgReg a then s.writeFrameCfg a v
  else if a = Reg.HAL_MESH_STUCK h then s.writeFld a 4 0 v fun x => 12 ≤ x && x ≤ 28
  else if a = Reg.HAL_FLT_CLEAR h then (if bit v 0 then s.next (execLatchClear (some (BitVec.ofNat 4 h)) s) else s)
  else s.writeMasked a r v

/-- MEM: the scrub period, the lookup, test requests and the generators (Tables 9.10 and 9.12). -/
def State.writeMem (s : State) (a : Nat) (r : RegRow) (v : Nat) : State :=
  let c := (a - 0x2010000) / 0x100
  let ch := BitVec.ofNat 8 c
  if a = Reg.MEM_SCRUB_CTRL then
    (s.writeFld a 8 8 v fun _ => true).writeFld a 7 0 v fun x => 1 ≤ x && x ≤ 168
  else if a = Reg.MEM_POT_QUERY then s.writePotQuery (v % 2 ^ 24)
  else if a = Reg.MEM_CH_CTRL c then s.next ((if bit v 0 then execChannelTestEnter else execChannelTestExit) ch s)
  else if a = Reg.MEM_TG_CTRL c then
    let s := s.next (execTgStart ch (BitVec.ofNat 32 v) s)
    if bit v 30 then s.next (execTgStop ch s) else s
  else if a = Reg.MEM_TG_STRIDE c then s.writeFld a 31 0 v fun x => 1 ≤ x && x < 2 ^ 26
  else s.writeMasked a r v

/-- GAR: the device id, routes, ports, roles, scans, the PTP domain, and bulk transfers, which need GARRID_TRANSFER (R475,
Table 15.9). -/
def State.writeGar (s : State) (a : Nat) (r : RegRow) (v : Nat) : State :=
  let g := (a - 0x2800100) / 0x100
  let port := BitVec.ofNat 4 g
  let w := BitVec.ofNat 32 v
  if a = Reg.GAR_DEVICE_ID then s.next (execDeviceIdWrite w s)
  else if a = Reg.GAR_PTP_CFG then (s.writeFld a 15 8 v (· ≤ 127)).writeFld a 2 0 v fun _ => true
  else if a = Reg.GAR_BULK_CTRL then
    (if bits v 31 30 ≠ 0 ∧ ¬ s.feature featGarrid then s.featureCode Code.FEATURE_NOT_ACCEPTED else s.writeMasked a r v)
  else if 0x2810000 ≤ a then s.next (execRouteWrite (BitVec.ofNat 16 ((a - 0x2810000) / 4)) w s)
  else if a = Reg.GAR_PORT_CTRL g then s.writePortCtrl g v
  else if a = Reg.GAR_PORT_PTP g then s.next (execPtpRoleWrite port w s)
  else if a = Reg.GAR_MARGIN_CTRL g then s.next (execMarginScan port (BitVec.ofNat 4 v) s)
  else s.writeMasked a r v

/-- FLT: the device latch, and the escalation of a source (R563, Table 16.8). -/
def State.writeFlt (s : State) (a : Nat) (r : RegRow) (v : Nat) : State :=
  if a = Reg.FLT_DEV_CLEAR then (if bit v 0 then s.next (execLatchClear none s) else s)
  else if 0x3001000 ≤ a then
    ((s.writeFld a 31 30 v fun _ => true).writeFld a 29 22 v (· ≠ 0)).writeFld a 21 0 v fun x => 1 ≤ x && x ≤ 3600000
  else s.writeMasked a r v

/-- RST: requests of steps, the replay limit, and the host copies of dumps (R568, R573, R593, Table 17.11). -/
def State.writeRst (s : State) (a : Nat) (r : RegRow) (v : Nat) : State :=
  if a = Reg.RST_REQ then
    match bits v 10 8 with
    | 1 => s.requestReset (bits v 3 0) .compute
    | 2 => s.requestReset (bits v 3 0) .hall
    | 3 => s.requestDie (bits v 3 0)
    | 4 => s.requestDevice
    | 5 => s.assertPowerCycle
    | _ => s.rstCode Code.RESET_REFUSED
  else if a = Reg.RST_REPLAY_LIMIT then s.writeFld a 15 0 v (16 ≤ ·)
  else if a = Reg.RST_DUMP_HOST_BYTES then s.writeFld a 31 0 v (· ≤ 268435456)
  else if a = Reg.RST_DUMP_COPY then s.next (execDumpCopy (BitVec.ofNat 32 v) s)
  else s.writeMasked a r v

/-- PWR: the class, the margin plan and its maintenance landings (R626, R632, Table 19.6). -/
def State.writePwr (s : State) (a : Nat) (r : RegRow) (v : Nat) : State :=
  if a = Reg.PWR_CLASS_REQ then s.next (execClassRequest (BitVec.ofNat 32 v) s)
  else if a = Reg.PWR_MAINT_REQ then s.next (execMaintenanceRequest s)
  else if a = Reg.PWR_MARGIN_CTRL then
    let s := (s.writeFld a 31 30 v fun _ => true).writeFld a 23 16 v fun x => 10 ≤ x && x ≤ 100
    (s.writeFld a 15 8 v fun x => 1 ≤ x && x < s.fld a 23 16).writeFld a 7 0 v fun x => 1 ≤ x && x ≤ 168
  else s.writeMasked a r v

/-- SEC: a command of the mailbox, and its arguments and window, which a command in progress locks (R612). -/
def State.writeSec (s : State) (a : Nat) (r : RegRow) (v : Nat) : State :=
  if a = Reg.SEC_MB_CMD then s.writeMbCmd (bits v 7 0)
  else if s.sec.cmd.isSome then s
  else s.writeMasked a r v

/-- CTX: the loss-scale groups, whose settings are locked while EN = 1, the fetch timeout and the re-checks (R384, R388,
Table 13.13). -/
def State.writeCtx (s : State) (a : Nat) (r : RegRow) (v : Nat) : State :=
  if 0x340E000 ≤ a ∧ a < 0x340F000 then
    let g := (a - 0x340E000) / 0x100
    if a = Reg.CTX_LS_CTRL g then s.next (execCtxLsCtrlWrite (BitVec.ofNat 4 g) (BitVec.ofNat 32 v) s)
    else if a = Reg.CTX_LS_DECIDE g then s.writeLsDecide g v
    else if s.lsOn g then s
    else s.writeMasked a r v
  else if a = Reg.CTX_LOAD_TIMEOUT then s.writeFld a 11 0 v fun x => 1 ≤ x && x ≤ 3600
  else if a = Reg.CTX_RECHECK then (s.writeFld a 8 8 v fun _ => true).writeFld a 7 0 v fun x => 1 ≤ x && x ≤ 168
  else s.writeMasked a r v

/-- A write of a whole register (Table 0.4). `same` are the bits that a device event of the same cycle sets in a register of access
RW1C. -/
def State.writeReg (s : State) (a : Nat) (r : RegRow) (v same : Nat) : State :=
  let o := a % 2 ^ 32
  match r.access with
  | .ro | .rc => s
  | .rw1c => s.setReg a ((s.reg a &&& (2 ^ (8 * r.width) - 1 - (v &&& r.w1c))) ||| (same &&& r.w1c))
  | _ =>
    if o < 0x100000 then s.writeDev a r v
    else if o < 0x200000 then s.writeFtk a r v
    else if o < 0x1000000 then s.writeHst a r v
    else if o < 0x2000000 then s.writeHal a r v
    else if o < 0x2800000 then s.writeMem a r v
    else if o < 0x3000000 then s.writeGar a r v
    else if o < 0x3100000 then s.writeFlt a r v
    else if o < 0x3200000 then s.writeRst a r v
    else if o < 0x3300000 then s.writePwr a r v
    else if o < 0x3400000 then s.writeSec a r v
    else s.writeCtx a r v

/-- A write of `n` bytes at a place. -/
def State.writeAt (s : State) (fn a n v same : Nat) : State :=
  match hitOf a n with
  | .full r => (s.dropHalves a).writeReg a r v same
  | .low _ => s.holdLow a v
  | .high b r =>
    let low := (s.held b).getD (s.readable b % 2 ^ 32)
    let t : State := { s with heldLow := s.heldLow.filter (·.1 ≠ b) }
    t.writeReg b r (2 ^ 32 * (v % 2 ^ 32) + low) same
  | .nothing => s
  | .broken => (s.hstCode fn Code.REG_ACCESS).raise { src := 0x41, code := Code.REG_ACCESS }

/-! ### The MSI-X tables (R501, R502) -/

/-- The entry that an offset falls into, with the offset inside it, and whether it falls into the pending bits instead. -/
def msixPlace (fn o : Nat) : Option (Bool × Nat) :=
  let (t, n, p) := if fn = 0 then (0x208000, 2048, 0x210000) else (0x8000, 128, 0x8800)
  if t ≤ o ∧ o < t + 16 * n then some (false, o - t)
  else if p ≤ o ∧ o < p + n / 8 then some (true, o - p)
  else none

/-- `n` bytes of the table or of the pending bits. -/
def State.msixRead (s : State) (fn : Nat) (pba : Bool) (o n : Nat) : Nat :=
  if pba then maskOf ((List.range (8 * n)).filter fun i => s.pcie.pba.contains (4096 * fn + 8 * o + i))
  else bits (mapGet msixDefault s.pcie.msix (4096 * fn + o / 16)).toNat (8 * (o % 16 + n) - 1) (8 * (o % 16))

/-- A write of the table: address bits [1:0] and the reserved bits of the vector control stay 0; a pending message is sent when its
vector is unmasked (R502). The pending bits ignore writes. -/
def State.msixWrite (s : State) (fn : Nat) (pba : Bool) (o n v : Nat) : State :=
  if pba then s
  else
    let k := 4096 * fn + o / 16
    let e := setBits (mapGet msixDefault s.pcie.msix k).toNat (8 * (o % 16 + n) - 1) (8 * (o % 16)) v
    let e := setBits (setBits e 127 97 0) 1 0 0
    let s : State := { s with pcie := { s.pcie with msix := mapSet msixDefault s.pcie.msix k (BitVec.ofNat 128 e) } }
    if ¬ bit e 96 ∧ s.pcie.pba.contains k ∧ s.pcie.linkUp then
      ({ s with pcie := { s.pcie with pba := s.pcie.pba.filter (· ≠ k) } } : State).sendMsix fn (k % 4096)
    else s

/-! ### Accesses -/

/-- Whether a function's MSI-X table answers: the PF's as the other registers, a VF's once it has come into being. -/
def State.msixAnswers (s : State) (fn : Nat) : Bool := s.ready && (fn == 0 || (s.pcie.vfEnable && fn ≤ 16))

/-- A read access of `n` bytes at an offset of a function's BAR0. -/
def State.busRead (s : State) (fn o n same : Nat) : State :=
  let answer (v : Nat) (t : State) : State := t.emit (.readData fn o (BitVec.ofNat 64 v))
  match (msixPlace fn o).filter fun _ => o % n == 0 && (n == 4 || n == 8) with
  | some m => answer (if s.msixAnswers fn then s.msixRead fn m.1 m.2 n else 0) s
  | none =>
    match s.place? fn o with
    | none => answer 0 s
    | some a =>
      let (v, t) := s.readAt fn a n same
      answer v t

/-- A write access of `n` bytes at an offset of a function's BAR0. -/
def State.busWrite (s : State) (fn o n v same : Nat) : State :=
  match (msixPlace fn o).filter fun _ => o % n == 0 && (n == 4 || n == 8) with
  | some m => if s.msixAnswers fn then s.msixWrite fn m.1 m.2 n v else s
  | none =>
    match s.place? fn o with
    | none => s
    | some a => s.writeAt fn a n v same

/-- The width of the register at a function's offset, 4 where there is none. -/
def widthAt (fn o : Nat) : Nat :=
  let a := if fn = 0 then o else if o < 0x100 then 0x200000 + o else 0x280000 + (o - 0x10000)
  ((regRow a).map (·.width)).getD 4

/-- `MAILBOX_READ`: a 64-bit read of a ring's mailbox, which counts (R500). -/
def execMailboxRead (fn : Fn) (ix : W16) (s : State) : Host.Outcome State Fault Refusal :=
  .next (s.busRead fn.toNat ((if fn = 0 then 0x280000 else 0x10000) + 8 * ix.toNat) 8 0)

/-- `REG_LOW_HALF_READ`: the low half of the register at an offset (R14, R19). -/
def execRegLowHalfRead (fn : Fn) (off : W32) (s : State) : Host.Outcome State Fault Refusal :=
  .next (s.busRead fn.toNat off.toNat 4 0)

/-- `REG_HIGH_HALF_READ`: the high half of the register at an offset (R683). -/
def execRegHighHalfRead (fn : Fn) (off : W32) (s : State) : Host.Outcome State Fault Refusal :=
  .next (s.busRead fn.toNat (off.toNat + 4) 4 0)

/-- `REG_LOW_HALF_WRITE`: the low half of the register at an offset is held (R15). -/
def execRegLowHalfWrite (fn : Fn) (off : W32) (v : W32) (s : State) : Host.Outcome State Fault Refusal :=
  .next (s.busWrite fn.toNat off.toNat 4 v.toNat 0)

/-- `REG_HIGH_HALF_WRITE`: the whole value of the register at an offset is applied (R15). -/
def execRegHighHalfWrite (fn : Fn) (off : W32) (v : W32) (s : State) : Host.Outcome State Fault Refusal :=
  .next (s.busWrite fn.toNat (off.toNat + 4) 4 v.toNat 0)

/-- `REG_ACCESS`: an access of any size at any offset; one that breaks R13 is discarded, or returns 0, and is reported (R16). -/
def execRegAccess (fn : Fn) (write : Bool) (off : W32) (bytes : BitVec 4) (v : W64) (s : State) : Host.Outcome State Fault Refusal :=
  .next (if write then s.busWrite fn.toNat off.toNat bytes.toNat v.toNat 0 else s.busRead fn.toNat off.toNat bytes.toNat 0)

/-- `RC_READ`: a read of a whole register; one of access RC is cleared, and keeps what an event of the same cycle counts (R18). -/
def execRcRead (fn : Fn) (off : W32) (same : W64) (s : State) : Host.Outcome State Fault Refusal :=
  .next (s.busRead fn.toNat off.toNat (widthAt fn.toNat off.toNat) same.toNat)

/-- `RW1C_WRITE`: a write of a whole register; in one of access RW1C it clears the bits written as 1, but for those that an event of
the same cycle sets (R18). -/
def execRw1cWrite (fn : Fn) (off : W32) (v : W64) (same : W64) (s : State) : Host.Outcome State Fault Refusal :=
  .next (s.busWrite fn.toNat off.toNat (widthAt fn.toNat off.toNat) v.toNat same.toNat)

/-- `REGISTER_WRITE`: a write of a whole register (R18). -/
def execRegisterWrite (fn : Fn) (off : W32) (v : W64) (s : State) : Host.Outcome State Fault Refusal :=
  .next (s.busWrite fn.toNat off.toNat (widthAt fn.toNat off.toNat) v.toNat 0)

end Sys2Proof.Machine
end

