-- ==== Sys2Proof/Machine/Dispatch.lean ====
section
/-! DEFINITION. One arm per command of the table: each is one direct call of the command's meaning. -/
namespace Sys2Proof.Machine

/-- The effect of the command `i` on everything but the queue (95: each row is one indivisible step). -/
def exec (i : Instr) (s : State) : Host.Outcome State Fault Refusal :=
  match i with
  | .regLowHalfRead fn off => Sys2Proof.Machine.execRegLowHalfRead fn off s
  | .regLowHalfWrite fn off v => Sys2Proof.Machine.execRegLowHalfWrite fn off v s
  | .regHighHalfWrite fn off v => Sys2Proof.Machine.execRegHighHalfWrite fn off v s
  | .regAccess fn write off bytes v => Sys2Proof.Machine.execRegAccess fn write off bytes v s
  | .rcRead fn off same => Sys2Proof.Machine.execRcRead fn off same s
  | .rw1cWrite fn off v same => Sys2Proof.Machine.execRw1cWrite fn off v same s
  | .registerWrite fn off v => Sys2Proof.Machine.execRegisterWrite fn off v s
  | .ftkSourceChange v => Sys2Proof.Machine.execFtkSourceChange v s
  | .ftkRunStart v => Sys2Proof.Machine.execFtkRunStart v s
  | .ftkRunStop v => Sys2Proof.Machine.execFtkRunStop v s
  | .ftkSet => Sys2Proof.Machine.execFtkSet s
  | .ftkSnap => Sys2Proof.Machine.execFtkSnap s
  | .ftkConfigWrite off v => Sys2Proof.Machine.execFtkConfigWrite off v s
  | .holdoverExpired => Sys2Proof.Machine.execHoldoverExpired s
  | .ppsInEdge => Sys2Proof.Machine.execPpsInEdge s
  | .ppsInMissing => Sys2Proof.Machine.execPpsInMissing s
  | .tick => Sys2Proof.Machine.execTick s
  | .galleryStart g => Sys2Proof.Machine.execGalleryStart g s
  | .mainQueueStart core => Sys2Proof.Machine.execMainQueueStart core s
  | .landingOpen => Sys2Proof.Machine.execLandingOpen s
  | .lsflag port p => Sys2Proof.Machine.execLsflag port p s
  | .lsRoundEnd g => Sys2Proof.Machine.execLsRoundEnd g s
  | .hallHandoverDone hall => Sys2Proof.Machine.execHallHandoverDone hall s
  | .admissions ctx => Sys2Proof.Machine.execAdmissions ctx s
  | .epochEntriesWritten ctx => Sys2Proof.Machine.execEpochEntriesWritten ctx s
  | .arrayMatmul core q => Sys2Proof.Machine.execArrayMatmul core q s
  | .arrayStepCompletion core => Sys2Proof.Machine.execArrayStepCompletion core s
  | .rampDownEnd core => Sys2Proof.Machine.execRampDownEnd core s
  | .vectorAdd core q => Sys2Proof.Machine.execVectorAdd core q s
  | .vectorSub core q => Sys2Proof.Machine.execVectorSub core q s
  | .vectorMul core q => Sys2Proof.Machine.execVectorMul core q s
  | .vectorMax core q => Sys2Proof.Machine.execVectorMax core q s
  | .vectorMin core q => Sys2Proof.Machine.execVectorMin core q s
  | .vectorFma core q => Sys2Proof.Machine.execVectorFma core q s
  | .scale core q => Sys2Proof.Machine.execScale core q s
  | .cvt core q => Sys2Proof.Machine.execCvt core q s
  | .fill core q => Sys2Proof.Machine.execFill core q s
  | .rsinit core q => Sys2Proof.Machine.execRsinit core q s
  | .exp core q => Sys2Proof.Machine.execExp core q s
  | .rsqrt core q => Sys2Proof.Machine.execRsqrt core q s
  | .recip core q => Sys2Proof.Machine.execRecip core q s
  | .relu core q => Sys2Proof.Machine.execRelu core q s
  | .lrelu core q => Sys2Proof.Machine.execLrelu core q s
  | .sigmoid core q => Sys2Proof.Machine.execSigmoid core q s
  | .tanh core q => Sys2Proof.Machine.execTanh core q s
  | .softplus core q => Sys2Proof.Machine.execSoftplus core q s
  | .elu core q => Sys2Proof.Machine.execElu core q s
  | .sqrelu core q => Sys2Proof.Machine.execSqrelu core q s
  | .gelu core q => Sys2Proof.Machine.execGelu core q s
  | .silu core q => Sys2Proof.Machine.execSilu core q s
  | .doutRelu core q => Sys2Proof.Machine.execDoutRelu core q s
  | .doutLrelu core q => Sys2Proof.Machine.execDoutLrelu core q s
  | .doutSigmoid core q => Sys2Proof.Machine.execDoutSigmoid core q s
  | .doutTanh core q => Sys2Proof.Machine.execDoutTanh core q s
  | .doutSoftplus core q => Sys2Proof.Machine.execDoutSoftplus core q s
  | .doutElu core q => Sys2Proof.Machine.execDoutElu core q s
  | .doutSqrelu core q => Sys2Proof.Machine.execDoutSqrelu core q s
  | .doutExp core q => Sys2Proof.Machine.execDoutExp core q s
  | .rownorm core q => Sys2Proof.Machine.execRownorm core q s
  | .segsum core q => Sys2Proof.Machine.execSegsum core q s
  | .iadd core q => Sys2Proof.Machine.execIadd core q s
  | .isub core q => Sys2Proof.Machine.execIsub core q s
  | .imul core q => Sys2Proof.Machine.execImul core q s
  | .imax core q => Sys2Proof.Machine.execImax core q s
  | .imin core q => Sys2Proof.Machine.execImin core q s
  | .vectorIterationCompletion core => Sys2Proof.Machine.execVectorIterationCompletion core s
  | .moverCopy core q => Sys2Proof.Machine.execMoverCopy core q s
  | .gather core q => Sys2Proof.Machine.execGather core q s
  | .scatter core q => Sys2Proof.Machine.execScatter core q s
  | .moverIterationCompletion core => Sys2Proof.Machine.execMoverIterationCompletion core s
  | .meshPut core q => Sys2Proof.Machine.execMeshPut core q s
  | .meshPutAdd core q => Sys2Proof.Machine.execMeshPutAdd core q s
  | .syncWait core q => Sys2Proof.Machine.execSyncWait core q s
  | .syncSignal core q => Sys2Proof.Machine.execSyncSignal core q s
  | .frameEnd core q => Sys2Proof.Machine.execFrameEnd core q s
  | .frameEndReached core => Sys2Proof.Machine.execFrameEndReached core s
  | .branch core q => Sys2Proof.Machine.execBranch core q s
  | .loop core q => Sys2Proof.Machine.execLoop core q s
  | .endloop core q => Sys2Proof.Machine.execEndloop core q s
  | .tloadComplete core slot => Sys2Proof.Machine.execTloadComplete core slot s
  | .tpatchComplete core slot => Sys2Proof.Machine.execTpatchComplete core slot s
  | .add core rd rs1 rs2 => Sys2Proof.Machine.execAdd core rd rs1 rs2 s
  | .sub core rd rs1 rs2 => Sys2Proof.Machine.execSub core rd rs1 rs2 s
  | .and core rd rs1 rs2 => Sys2Proof.Machine.execAnd core rd rs1 rs2 s
  | .or core rd rs1 rs2 => Sys2Proof.Machine.execOr core rd rs1 rs2 s
  | .xor core rd rs1 rs2 => Sys2Proof.Machine.execXor core rd rs1 rs2 s
  | .sll core rd rs1 rs2 => Sys2Proof.Machine.execSll core rd rs1 rs2 s
  | .srl core rd rs1 rs2 => Sys2Proof.Machine.execSrl core rd rs1 rs2 s
  | .sra core rd rs1 rs2 => Sys2Proof.Machine.execSra core rd rs1 rs2 s
  | .mul core rd rs1 rs2 => Sys2Proof.Machine.execMul core rd rs1 rs2 s
  | .mulh core rd rs1 rs2 => Sys2Proof.Machine.execMulh core rd rs1 rs2 s
  | .mulhu core rd rs1 rs2 => Sys2Proof.Machine.execMulhu core rd rs1 rs2 s
  | .div core rd rs1 rs2 => Sys2Proof.Machine.execDiv core rd rs1 rs2 s
  | .divu core rd rs1 rs2 => Sys2Proof.Machine.execDivu core rd rs1 rs2 s
  | .rem core rd rs1 rs2 => Sys2Proof.Machine.execRem core rd rs1 rs2 s
  | .remu core rd rs1 rs2 => Sys2Proof.Machine.execRemu core rd rs1 rs2 s
  | .min core rd rs1 rs2 => Sys2Proof.Machine.execMin core rd rs1 rs2 s
  | .max core rd rs1 rs2 => Sys2Proof.Machine.execMax core rd rs1 rs2 s
  | .minu core rd rs1 rs2 => Sys2Proof.Machine.execMinu core rd rs1 rs2 s
  | .maxu core rd rs1 rs2 => Sys2Proof.Machine.execMaxu core rd rs1 rs2 s
  | .addi core rd rs1 imm => Sys2Proof.Machine.execAddi core rd rs1 imm s
  | .andi core rd rs1 imm => Sys2Proof.Machine.execAndi core rd rs1 imm s
  | .ori core rd rs1 imm => Sys2Proof.Machine.execOri core rd rs1 imm s
  | .xori core rd rs1 imm => Sys2Proof.Machine.execXori core rd rs1 imm s
  | .slli core rd rs1 sh => Sys2Proof.Machine.execSlli core rd rs1 sh s
  | .srli core rd rs1 sh => Sys2Proof.Machine.execSrli core rd rs1 sh s
  | .srai core rd rs1 sh => Sys2Proof.Machine.execSrai core rd rs1 sh s
  | .lui core rd imm => Sys2Proof.Machine.execLui core rd imm s
  | .aadd core rd rs1 rs2 => Sys2Proof.Machine.execAadd core rd rs1 rs2 s
  | .asetlo core rd rs2 => Sys2Proof.Machine.execAsetlo core rd rs2 s
  | .asethi core rd rs2 => Sys2Proof.Machine.execAsethi core rd rs2 s
  | .agetlo core rd rs1 => Sys2Proof.Machine.execAgetlo core rd rs1 s
  | .agethi core rd rs1 => Sys2Proof.Machine.execAgethi core rd rs1 s
  | .amov core rd rs1 => Sys2Proof.Machine.execAmov core rd rs1 s
  | .azx core rd rs2 => Sys2Proof.Machine.execAzx core rd rs2 s
  | .aaddi core rd rs1 imm => Sys2Proof.Machine.execAaddi core rd rs1 imm s
  | .cmp core pd rs1 rs2 cond => Sys2Proof.Machine.execCmp core pd rs1 rs2 cond s
  | .cmpi core pd rs1 cond imm => Sys2Proof.Machine.execCmpi core pd rs1 cond imm s
  | .pand core pd pa pb => Sys2Proof.Machine.execPand core pd pa pb s
  | .por core pd pa pb => Sys2Proof.Machine.execPor core pd pa pb s
  | .pxor core pd pa pb => Sys2Proof.Machine.execPxor core pd pa pb s
  | .pandn core pd pa pb => Sys2Proof.Machine.execPandn core pd pa pb s
  | .sel core rd rs1 rs2 p => Sys2Proof.Machine.execSel core rd rs1 rs2 p s
  | .br core p n off => Sys2Proof.Machine.execBr core p n off s
  | .jal core rd off => Sys2Proof.Machine.execJal core rd off s
  | .jr core rs1 => Sys2Proof.Machine.execJr core rs1 s
  | .ldb core rd rs1 imm => Sys2Proof.Machine.execLdb core rd rs1 imm s
  | .ldbu core rd rs1 imm => Sys2Proof.Machine.execLdbu core rd rs1 imm s
  | .ldh core rd rs1 imm => Sys2Proof.Machine.execLdh core rd rs1 imm s
  | .ldhu core rd rs1 imm => Sys2Proof.Machine.execLdhu core rd rs1 imm s
  | .ldw core rd rs1 imm => Sys2Proof.Machine.execLdw core rd rs1 imm s
  | .lda core rd rs1 imm => Sys2Proof.Machine.execLda core rd rs1 imm s
  | .stb core rd rs1 imm => Sys2Proof.Machine.execStb core rd rs1 imm s
  | .sth core rd rs1 imm => Sys2Proof.Machine.execSth core rd rs1 imm s
  | .stw core rd rs1 imm => Sys2Proof.Machine.execStw core rd rs1 imm s
  | .sta core rd rs1 imm => Sys2Proof.Machine.execSta core rd rs1 imm s
  | .dcreate core dd ab imm => Sys2Proof.Machine.execDcreate core dd ab imm s
  | .dcopy core dd ds => Sys2Proof.Machine.execDcopy core dd ds s
  | .dinv core dd => Sys2Proof.Machine.execDinv core dd s
  | .tload core slot ds => Sys2Proof.Machine.execTload core slot ds s
  | .tgo core slot q => Sys2Proof.Machine.execTgo core slot q s
  | .tswitch core slot q rs u => Sys2Proof.Machine.execTswitch core slot q rs u s
  | .twait core tc rs => Sys2Proof.Machine.execTwait core tc rs s
  | .twaitRetire core => Sys2Proof.Machine.execTwaitRetire core s
  | .tpatch core slot rs av field => Sys2Proof.Machine.execTpatch core slot rs av field s
  | .send core ss a => Sys2Proof.Machine.execSend core ss a s
  | .sendResume core => Sys2Proof.Machine.execSendResume core s
  | .recv core sd a queue => Sys2Proof.Machine.execRecv core sd a queue s
  | .recvResume core => Sys2Proof.Machine.execRecvResume core s
  | .probe core sd queue => Sys2Proof.Machine.execProbe core sd queue s
  | .landwait core sd => Sys2Proof.Machine.execLandwait core sd s
  | .landwaitResume core => Sys2Proof.Machine.execLandwaitResume core s
  | .fence core mask => Sys2Proof.Machine.execFence core mask s
  | .fenceResume core => Sys2Proof.Machine.execFenceResume core s
  | .csrr core a csr => Sys2Proof.Machine.execCsrr core a csr s
  | .csrw core a csr => Sys2Proof.Machine.execCsrw core a csr s
  | .trap core code => Sys2Proof.Machine.execTrap core code s
  | .tret core => Sys2Proof.Machine.execTret core s
  | .halt core => Sys2Proof.Machine.execHalt core s
  | .msg port p => Sys2Proof.Machine.execMsg port p s
  | .creditReq port p => Sys2Proof.Machine.execCreditReq port p s
  | .creditGrant port p => Sys2Proof.Machine.execCreditGrant port p s
  | .creditRet port p => Sys2Proof.Machine.execCreditRet port p s
  | .put port p => Sys2Proof.Machine.execPut port p s
  | .putAdd port p => Sys2Proof.Machine.execPutAdd port p s
  | .signal port p => Sys2Proof.Machine.execSignal port p s
  | .ack port p => Sys2Proof.Machine.execAck port p s
  | .nack port p => Sys2Proof.Machine.execNack port p s
  | .creditReqRetry core => Sys2Proof.Machine.execCreditReqRetry core s
  | .creditExpiry core dest => Sys2Proof.Machine.execCreditExpiry core dest s
  | .grantRecordExpiry core queue saved => Sys2Proof.Machine.execGrantRecordExpiry core queue saved s
  | .msgCreditTimeout core => Sys2Proof.Machine.execMsgCreditTimeout core s
  | .epochAheadRetry core tile => Sys2Proof.Machine.execEpochAheadRetry core tile s
  | .meshDeadlock hall => Sys2Proof.Machine.execMeshDeadlock hall s
  | .linkRspTimeout core tile => Sys2Proof.Machine.execLinkRspTimeout core tile s
  | .quarantineDrop gallery slot => Sys2Proof.Machine.execQuarantineDrop gallery slot s
  | .patrolScrub key bytes upsets passEnd => Sys2Proof.Machine.execPatrolScrub key bytes upsets passEnd s
  | .channelTestEnter ch => Sys2Proof.Machine.execChannelTestEnter ch s
  | .channelTestExit ch => Sys2Proof.Machine.execChannelTestExit ch s
  | .tgStart ch v => Sys2Proof.Machine.execTgStart ch v s
  | .tgStop ch => Sys2Proof.Machine.execTgStop ch s
  | .tgRunEnd ch ops => Sys2Proof.Machine.execTgRunEnd ch ops s
  | .potQuery page => Sys2Proof.Machine.execPotQuery page s
  | .potLookupDone => Sys2Proof.Machine.execPotLookupDone s
  | .channelTrainingEnd ch ok => Sys2Proof.Machine.execChannelTrainingEnd ch ok s
  | .bar4Read fn off len => Sys2Proof.Machine.execBar4Read fn off len s
  | .bar4Write fn off data => Sys2Proof.Machine.execBar4Write fn off data s
  | .sqTail fn page v => Sys2Proof.Machine.execSqTail fn page v s
  | .cqHead fn page v => Sys2Proof.Machine.execCqHead fn page v s
  | .commandFetch ring r => Sys2Proof.Machine.execCommandFetch ring r s
  | .nop ring seq => Sys2Proof.Machine.execNop ring seq s
  | .createRing ring seq => Sys2Proof.Machine.execCreateRing ring seq s
  | .deleteRing ring seq => Sys2Proof.Machine.execDeleteRing ring seq s
  | .vfConfig ring seq => Sys2Proof.Machine.execVfConfig ring seq s
  | .evictArea ring seq => Sys2Proof.Machine.execEvictArea ring seq s
  | .createContext ring seq => Sys2Proof.Machine.execCreateContext ring seq s
  | .destroyContext ring seq => Sys2Proof.Machine.execDestroyContext ring seq s
  | .rangeCreate ring seq => Sys2Proof.Machine.execRangeCreate ring seq s
  | .rangeRemove ring seq => Sys2Proof.Machine.execRangeRemove ring seq s
  | .hallSet ring seq => Sys2Proof.Machine.execHallSet ring seq s
  | .attach ring seq pkg => Sys2Proof.Machine.execAttach ring seq pkg s
  | .detach ring seq => Sys2Proof.Machine.execDetach ring seq s
  | .exportCommand ring seq => Sys2Proof.Machine.execExportCommand ring seq s
  | .packageWritten ctx ok => Sys2Proof.Machine.execPackageWritten ctx ok s
  | .copy ring seq host => Sys2Proof.Machine.execCopy ring seq host s
  | .submitKernel ring seq => Sys2Proof.Machine.execSubmitKernel ring seq s
  | .batch ring seq desc => Sys2Proof.Machine.execBatch ring seq desc s
  | .fenceCommand ring seq => Sys2Proof.Machine.execFenceCommand ring seq s
  | .loadShard ring seq => Sys2Proof.Machine.execLoadShard ring seq s
  | .loadData ring seq => Sys2Proof.Machine.execLoadData ring seq s
  | .shardFetchDone ring seq r => Sys2Proof.Machine.execShardFetchDone ring seq r s
  | .shardTimeout ring seq => Sys2Proof.Machine.execShardTimeout ring seq s
  | .switchVersion ring seq => Sys2Proof.Machine.execSwitchVersion ring seq s
  | .discardVersion ring seq => Sys2Proof.Machine.execDiscardVersion ring seq s
  | .restoreImage ring seq host => Sys2Proof.Machine.execRestoreImage ring seq host s
  | .digestRecheck ctx model slot passEnd => Sys2Proof.Machine.execDigestRecheck ctx model slot passEnd s
  | .mailboxRead fn ix => Sys2Proof.Machine.execMailboxRead fn ix s
  | .featureLock => Sys2Proof.Machine.execFeatureLock s
  | .adminRingEnable fn v => Sys2Proof.Machine.execAdminRingEnable fn v s
  | .adminRingDisable fn v => Sys2Proof.Machine.execAdminRingDisable fn v s
  | .ringQuery fn ring => Sys2Proof.Machine.execRingQuery fn ring s
  | .pfFlr => Sys2Proof.Machine.execPfFlr s
  | .perstN => Sys2Proof.Machine.execPerstN s
  | .linkLoss => Sys2Proof.Machine.execLinkLoss s
  | .vfFlr vf => Sys2Proof.Machine.execVfFlr vf s
  | .vfEnableSet => Sys2Proof.Machine.execVfEnableSet s
  | .vfEnableClear => Sys2Proof.Machine.execVfEnableClear s
  | .msixUnmask fn vector => Sys2Proof.Machine.execMsixUnmask fn vector s
  | .bar4Resize log2 => Sys2Proof.Machine.execBar4Resize log2 s
  | .portEnable port v => Sys2Proof.Machine.execPortEnable port v s
  | .portDisable port v => Sys2Proof.Machine.execPortDisable port v s
  | .laneReset port v => Sys2Proof.Machine.execLaneReset port v s
  | .trainingComplete port usable => Sys2Proof.Machine.execTrainingComplete port usable s
  | .trainingTimeout port => Sys2Proof.Machine.execTrainingTimeout port s
  | .trainingRetry port => Sys2Proof.Machine.execTrainingRetry port s
  | .lossOfSignal port lane => Sys2Proof.Machine.execLossOfSignal port lane s
  | .laneUeLimit port lane => Sys2Proof.Machine.execLaneUeLimit port lane s
  | .badFlit port seq codewords => Sys2Proof.Machine.execBadFlit port seq codewords s
  | .replayReq port seq => Sys2Proof.Machine.execReplayReq port seq s
  | .replayReqRepeat port => Sys2Proof.Machine.execReplayReqRepeat port s
  | .replayStart port seq => Sys2Proof.Machine.execReplayStart port seq s
  | .link port ack counts => Sys2Proof.Machine.execLink port ack counts s
  | .align port lane codeword corrected => Sys2Proof.Machine.execAlign port lane codeword corrected s
  | .ident port id peer lanes degrade => Sys2Proof.Machine.execIdent port id peer lanes degrade s
  | .deviceIdWrite v => Sys2Proof.Machine.execDeviceIdWrite v s
  | .routeWrite id v => Sys2Proof.Machine.execRouteWrite id v s
  | .ptpRoleWrite port v => Sys2Proof.Machine.execPtpRoleWrite port v s
  | .marginScan port lanes => Sys2Proof.Machine.execMarginScan port lanes s
  | .marginScanDone port lane horiz vert => Sys2Proof.Machine.execMarginScanDone port lane horiz vert s
  | .bulkRead port p => Sys2Proof.Machine.execBulkRead port p s
  | .bulkData port p => Sys2Proof.Machine.execBulkData port p s
  | .syncInterval port => Sys2Proof.Machine.execSyncInterval port s
  | .sync port m => Sys2Proof.Machine.execSync port m s
  | .followUp port m => Sys2Proof.Machine.execFollowUp port m s
  | .delayReq port m => Sys2Proof.Machine.execDelayReq port m s
  | .delayResp port m => Sys2Proof.Machine.execDelayResp port m s
  | .ptpLost => Sys2Proof.Machine.execPtpLost s
  | .faultEvent src hall ctx code inst x y => Sys2Proof.Machine.execFaultEvent src hall ctx code inst x y s
  | .latchClear scope => Sys2Proof.Machine.execLatchClear scope s
  | .dumpReadTimeout serial kind index => Sys2Proof.Machine.execDumpReadTimeout serial kind index s
  | .dumpTimeLimit serial done => Sys2Proof.Machine.execDumpTimeLimit serial done s
  | .resetStepEnd unit failed => Sys2Proof.Machine.execResetStepEnd unit failed s
  | .resetDeadline unit => Sys2Proof.Machine.execResetDeadline unit s
  | .replayLimitReached hall => Sys2Proof.Machine.execReplayLimitReached hall s
  | .rstReqCompute hall => Sys2Proof.Machine.execRstReqCompute hall s
  | .rstReqHall hall => Sys2Proof.Machine.execRstReqHall hall s
  | .rstReqDie die => Sys2Proof.Machine.execRstReqDie die s
  | .rstReqDevice => Sys2Proof.Machine.execRstReqDevice s
  | .rstReqPowerCycle => Sys2Proof.Machine.execRstReqPowerCycle s
  | .dumpCopy v => Sys2Proof.Machine.execDumpCopy v s
  | .dumpCopyDone ok => Sys2Proof.Machine.execDumpCopyDone ok s
  | .identityDerivationEnd seed => Sys2Proof.Machine.execIdentityDerivationEnd seed s
  | .getCert => Sys2Proof.Machine.execGetCert s
  | .attest => Sys2Proof.Machine.execAttest s
  | .markRetire => Sys2Proof.Machine.execMarkRetire s
  | .slotRetest => Sys2Proof.Machine.execSlotRetest s
  | .flashWrite => Sys2Proof.Machine.execFlashWrite s
  | .mailboxDone ok => Sys2Proof.Machine.execMailboxDone ok s
  | .liveRecordWriteEnd ok => Sys2Proof.Machine.execLiveRecordWriteEnd ok s
  | .classRequest v => Sys2Proof.Machine.execClassRequest v s
  | .pwrBrakeNFall => Sys2Proof.Machine.execPwrBrakeNFall s
  | .pwrBrakeNRise => Sys2Proof.Machine.execPwrBrakeNRise s
  | .inputUv => Sys2Proof.Machine.execInputUv s
  | .inputPowerOff => Sys2Proof.Machine.execInputPowerOff s
  | .inputOv => Sys2Proof.Machine.execInputOv s
  | .railFault rail => Sys2Proof.Machine.execRailFault rail s
  | .hallDroop hall => Sys2Proof.Machine.execHallDroop hall s
  | .inputSample watts => Sys2Proof.Machine.execInputSample watts s
  | .telemetryUpdate t => Sys2Proof.Machine.execTelemetryUpdate t s
  | .maintenanceRequest => Sys2Proof.Machine.execMaintenanceRequest s
  | .maintenanceInterval => Sys2Proof.Machine.execMaintenanceInterval s
  | .pathDelaySample readings => Sys2Proof.Machine.execPathDelaySample readings s
  | .pwrEnRise => Sys2Proof.Machine.execPwrEnRise s
  | .pwrGoodRelease => Sys2Proof.Machine.execPwrGoodRelease s
  | .railRampTimeout => Sys2Proof.Machine.execRailRampTimeout s
  | .pwrEnFall => Sys2Proof.Machine.execPwrEnFall s
  | .refclkLoss => Sys2Proof.Machine.execRefclkLoss s
  | .cblPrsntNLow cbl kind => Sys2Proof.Machine.execCblPrsntNLow cbl kind s
  | .cblPrsntNHigh cbl => Sys2Proof.Machine.execCblPrsntNHigh cbl s
  | .vcblOverload cbl => Sys2Proof.Machine.execVcblOverload cbl s
  | .status => Sys2Proof.Machine.execStatus s
  | .input => Sys2Proof.Machine.execInput s
  | .inputPeak => Sys2Proof.Machine.execInputPeak s
  | .energy => Sys2Proof.Machine.execEnergy s
  | .faults => Sys2Proof.Machine.execFaults s
  | .tempN n => Sys2Proof.Machine.execTempN n s
  | .railN r => Sys2Proof.Machine.execRailN r s
  | .serial => Sys2Proof.Machine.execSerial s
  | .part => Sys2Proof.Machine.execPart s
  | .versions => Sys2Proof.Machine.execVersions s
  | .alertResponse => Sys2Proof.Machine.execAlertResponse s
  | .bringupPhaseEnd r => Sys2Proof.Machine.execBringupPhaseEnd r s
  | .katPrivateTick => Sys2Proof.Machine.execKatPrivateTick s
  | .bringupTimeout => Sys2Proof.Machine.execBringupTimeout s
  | .regHighHalfRead fn off => Sys2Proof.Machine.execRegHighHalfRead fn off s
  | .ctxLsDecide g v => Sys2Proof.Machine.execCtxLsDecide g v s
  | .ctxLsCtrlWrite g v => Sys2Proof.Machine.execCtxLsCtrlWrite g v s
  | .ppsOutSecond => Sys2Proof.Machine.execPpsOutSecond s
  | .illegal core word => Sys2Proof.Machine.execIllegal core word s
  | .linkUp width speed => Sys2Proof.Machine.execLinkUp width speed s
  | .ringInfoValid fn => Sys2Proof.Machine.execRingInfoValid fn s

end Sys2Proof.Machine
end

