-- ==== Sys2Proof/Machine/Step.lean ====
section
/-! DEFINITION. One step of the block: the command at the front of the queue, or, with none waiting, one core cycle. -/
namespace Sys2Proof.Machine

/-- The command at the front of the queue takes effect; with an empty queue one core cycle passes, which moves the time
counters and nothing else (log entry 11). -/
def step (s : State) : Host.Outcome State Fault Refusal :=
  match s.pending with
  | [] => .next s.idleCycle
  | c :: rest => exec c { s with pending := rest }

/-- The state with the command that a word of the table spells at the front of the queue. No row of the table gives its
command bits, so no word spells one, and the state is as it was. -/
def State.withFetchWord (s : State) (nbits w : Nat) : State :=
  match decodeTableWord nbits w with
  | some c => { s with pending := c :: s.pending }
  | none => s

end Sys2Proof.Machine
end

