-- ==== Sys2Proof/Laws/Maps.lean ====
section
/-! SUPPORT. The laws of the sparse maps: a read after a write, and the canonical form that every operation keeps. -/
namespace Sys2Proof.Machine

variable {α : Type} [DecidableEq α]

/-! ### A read after a write -/

omit [DecidableEq α] in
theorem mapGet_mapPut_same (d : α) (m : SMap α) (k : Nat) (v : α) : mapGet d (mapPut m k v) k = v := by
  induction m with
  | nil => simp [mapPut, mapGet]
  | cons e r ih =>
    obtain ⟨k', v'⟩ := e
    simp only [mapPut]
    split
    · simp [mapGet]
    · split
      · simp [mapGet]
      · rw [mapGet, if_neg (by omega), ih]

omit [DecidableEq α] in
theorem mapGet_mapPut_other (d : α) (m : SMap α) {k j : Nat} (v : α) (h : j ≠ k) :
    mapGet d (mapPut m k v) j = mapGet d m j := by
  induction m with
  | nil => simp [mapPut, mapGet, Ne.symm h]
  | cons e r ih =>
    obtain ⟨k', v'⟩ := e
    simp only [mapPut]
    split
    · simp [mapGet, Ne.symm h]
    · split
      · subst_vars; simp [mapGet, Ne.symm h]
      · simp only [mapGet]; rw [ih]

omit [DecidableEq α] in
theorem mapGet_filter_same (d : α) (m : SMap α) (k : Nat) : mapGet d (m.filter fun e => e.1 != k) k = d := by
  induction m with
  | nil => rfl
  | cons e r ih =>
    obtain ⟨k', v'⟩ := e
    by_cases h : k' = k <;> simp_all [mapGet]

omit [DecidableEq α] in
theorem mapGet_filter_other (d : α) (m : SMap α) {k j : Nat} (h : j ≠ k) :
    mapGet d (m.filter fun e => e.1 != k) j = mapGet d m j := by
  induction m with
  | nil => rfl
  | cons e r ih =>
    obtain ⟨k', v'⟩ := e
    by_cases h' : k' = k
    · subst h'; simp [mapGet, Ne.symm h, ih]
    · simp [h', mapGet, ih]

/-- A map read where it was written gives what was written. -/
@[simp] theorem mapGet_mapSet_same (d : α) (m : SMap α) (k : Nat) (v : α) : mapGet d (mapSet d m k v) k = v := by
  unfold mapSet
  split
  · subst_vars; exact mapGet_filter_same _ m k
  · exact mapGet_mapPut_same d m k v

/-- A write leaves every other key of a map as it was. -/
theorem mapGet_mapSet_other (d d' : α) (m : SMap α) {k j : Nat} (v : α) (h : j ≠ k) :
    mapGet d' (mapSet d m k v) j = mapGet d' m j := by
  unfold mapSet
  split
  · exact mapGet_filter_other d' m h
  · exact mapGet_mapPut_other d' m v h

theorem mapGet_mapSet (d : α) (m : SMap α) (k j : Nat) (v : α) :
    mapGet d (mapSet d m k v) j = if j = k then v else mapGet d m j := by
  split
  · subst_vars; simp
  · exact mapGet_mapSet_other d d m v ‹_›

/-! ### The canonical form -/

/-- Every key of the map lies above `k`. -/
def mapAbove (k : Nat) (m : SMap α) : Prop := ∀ e ∈ m, k < e.1

theorem mapWf_cons (d : α) (k : Nat) (v : α) (m : SMap α) :
    mapWf d ((k, v) :: m) = true ↔ v ≠ d ∧ mapAbove k m ∧ mapWf d m = true := by
  induction m generalizing k v with
  | nil => simp [mapWf, mapAbove]
  | cons e r ih =>
    obtain ⟨k', v'⟩ := e
    rw [mapWf, Bool.and_eq_true, Bool.and_eq_true, ih k' v']
    simp only [mapAbove, decide_eq_true_eq, List.mem_cons, forall_eq_or_imp]
    constructor
    · rintro ⟨⟨hv, hk⟩, hv', ha, hw⟩
      exact ⟨hv, ⟨hk, fun e he => Nat.lt_trans hk (ha e he)⟩, hv', ha, hw⟩
    · rintro ⟨hv, ⟨hk, _⟩, hv', ha, hw⟩
      exact ⟨⟨hv, hk⟩, hv', ha, hw⟩

theorem mapWf_filter (d : α) (m : SMap α) (p : Nat × α → Bool) (h : mapWf d m = true) : mapWf d (m.filter p) = true := by
  induction m with
  | nil => rfl
  | cons e r ih =>
    obtain ⟨k, v⟩ := e
    rw [mapWf_cons] at h
    rw [List.filter_cons]
    split
    · rw [mapWf_cons]
      exact ⟨h.1, fun e he => h.2.1 e (List.mem_filter.1 he).1, ih h.2.2⟩
    · exact ih h.2.2

omit [DecidableEq α] in
theorem mapAbove_mapPut {j k : Nat} {m : SMap α} (v : α) (hm : mapAbove j m) (hk : j < k) : mapAbove j (mapPut m k v) := by
  induction m with
  | nil => simpa [mapPut, mapAbove] using hk
  | cons e r ih =>
    obtain ⟨k', v'⟩ := e
    have h1 : j < k' := hm (k', v') (by simp)
    have h2 : mapAbove j r := fun e he => hm e (by simp [he])
    simp only [mapPut]
    split
    · intro e he
      simp only [List.mem_cons] at he
      obtain rfl | rfl | he := he
      · exact hk
      · exact h1
      · exact h2 e he
    · split
      · intro e he
        simp only [List.mem_cons] at he
        obtain rfl | he := he
        · exact hk
        · exact h2 e he
      · intro e he
        simp only [List.mem_cons] at he
        obtain rfl | he := he
        · exact h1
        · exact ih h2 e he

theorem mapWf_mapPut (d : α) (m : SMap α) (k : Nat) {v : α} (hv : v ≠ d) (h : mapWf d m = true) :
    mapWf d (mapPut m k v) = true := by
  induction m with
  | nil => simpa [mapPut, mapWf] using hv
  | cons e r ih =>
    obtain ⟨k', v'⟩ := e
    have hc := (mapWf_cons d k' v' r).1 h
    simp only [mapPut]
    split
    · rw [mapWf_cons]
      refine ⟨hv, ?_, h⟩
      intro e he
      simp only [List.mem_cons] at he
      obtain rfl | he := he
      · assumption
      · have := hc.2.1 e he; omega
    · split
      · subst_vars
        rw [mapWf_cons]
        exact ⟨hv, hc.2.1, hc.2.2⟩
      · rw [mapWf_cons]
        exact ⟨hc.1, mapAbove_mapPut v hc.2.1 (by omega), ih hc.2.2⟩

/-- A write keeps the canonical form of a map. -/
theorem mapWf_mapSet (d : α) (m : SMap α) (k : Nat) (v : α) (h : mapWf d m = true) : mapWf d (mapSet d m k v) = true := by
  unfold mapSet
  split
  · exact mapWf_filter d m _ h
  · exact mapWf_mapPut d m k ‹_› h

theorem mapWf_mapDropRange (d : α) (m : SMap α) (lo hi : Nat) (h : mapWf d m = true) : mapWf d (mapDropRange m lo hi) = true :=
  mapWf_filter d m _ h

theorem mapWf_mapKeepRange (d : α) (m : SMap α) (lo hi : Nat) (h : mapWf d m = true) : mapWf d (mapKeepRange m lo hi) = true :=
  mapWf_filter d m _ h

/-- Maps in the canonical form that read alike everywhere are equal. -/
theorem mapWf_ext (d : α) {m n : SMap α} (hm : mapWf d m = true) (hn : mapWf d n = true)
    (h : ∀ k, mapGet d m k = mapGet d n k) : m = n := by
  have below (k : Nat) (r : SMap α) (hr : mapAbove k r) : mapGet d r k = d := by
    induction r with
    | nil => rfl
    | cons e r ih =>
      have h1 : k < e.1 := hr e (by simp)
      rw [show e = (e.1, e.2) from rfl, mapGet, if_neg (by omega)]
      exact ih fun e he => hr e (by simp [he])
  induction m generalizing n with
  | nil =>
    cases n with
    | nil => rfl
    | cons e r =>
      have := (mapWf_cons d e.1 e.2 r).1 hn
      have hk := h e.1
      simp [mapGet] at hk
      exact absurd hk.symm this.1
  | cons e r ih =>
    obtain ⟨k, v⟩ := e
    have hc := (mapWf_cons d k v r).1 hm
    cases n with
    | nil =>
      have hk := h k
      simp [mapGet] at hk
      exact absurd hk hc.1
    | cons e' r' =>
      obtain ⟨k', v'⟩ := e'
      have hc' := (mapWf_cons d k' v' r').1 hn
      have hkk : k = k' := by
        rcases Nat.lt_trichotomy k k' with hlt | heq | hgt
        · have hk := h k
          rw [mapGet, if_pos rfl, below k ((k', v') :: r')] at hk
          · exact absurd hk hc.1
          · intro e he
            simp only [List.mem_cons] at he
            obtain rfl | he := he
            · exact hlt
            · have := hc'.2.1 e he; omega
        · exact heq
        · have hk := h k'
          rw [mapGet, if_neg (by omega), below k' r, mapGet, if_pos rfl] at hk
          · exact absurd hk.symm hc'.1
          · intro e he
            have := hc.2.1 e he; omega
      subst hkk
      have hv : v = v' := by simpa [mapGet] using h k
      subst hv
      refine congrArg _ (ih hc.2.2 hc'.2.2 fun j => ?_)
      by_cases hj : k = j
      · subst hj; rw [below k r hc.2.1, below k r' hc'.2.1]
      · have := h j
        rwa [mapGet, if_neg hj, mapGet, if_neg hj] at this

/-! ### The memory cells -/

theorem writeCell_wf (m : List Host.Cell) (k : Nat) (b : Byte) (h : Memory.wf m = true) : Memory.wf (writeCell m k b) = true :=
  mapWf_mapSet 0 m k b h

theorem writeCells_wf (m : List Host.Cell) (k : Nat) (bs : List Byte) (h : Memory.wf m = true) :
    Memory.wf (writeCells m k bs) = true := by
  induction bs generalizing m k with
  | nil => exact h
  | cons b r ih => exact ih _ _ (writeCell_wf m k b h)

theorem foldl_writeCell_wf (l : List (Nat × Byte)) (m : List Host.Cell) (h : Memory.wf m = true) :
    Memory.wf (l.foldl (fun m e => writeCell m e.1 e.2) m) = true := by
  induction l generalizing m with
  | nil => exact h
  | cons e r ih => exact ih _ (writeCell_wf m e.1 e.2 h)

/-- Bytes written from a key on stand there, and every other key reads as before. -/
theorem mapGet_writeCells (m : List Host.Cell) (k j : Nat) (bs : List Byte) :
    mapGet 0 (writeCells m k bs) j = if k ≤ j ∧ j < k + bs.length then bs.getD (j - k) 0 else mapGet 0 m j := by
  induction bs generalizing m k with
  | nil => rw [writeCells, if_neg (by simp only [List.length_nil]; omega)]
  | cons b r ih =>
    rw [writeCells, ih, writeCell]
    by_cases hj : j = k
    · subst hj
      rw [if_neg (by omega), mapGet_mapSet_same, if_pos (by simp)]
      simp
    · rw [mapGet_mapSet_other _ _ _ _ hj]
      by_cases h : k + 1 ≤ j ∧ j < k + 1 + r.length
      · rw [if_pos h, if_pos (by simp only [List.length_cons]; omega)]
        rw [show j - k = (j - (k + 1)) + 1 from by omega, List.getD_cons_succ]
      · rw [if_neg h, if_neg (by simp only [List.length_cons]; omega)]

end Sys2Proof.Machine
end

