-- ==== Sys2Proof/Laws/State.lean ====
section
/-! SUPPORT. What each named operation leaves as it was, field by field, and what it leaves in the field that it writes. -/
namespace Sys2Proof.Machine

/-! ### setReg -/

@[simp] theorem State.setReg_pending (s : State) (a v : Nat) : (s.setReg a v).pending = s.pending := rfl
@[simp] theorem State.setReg_out (s : State) (a v : Nat) : (s.setReg a v).out = s.out := rfl
@[simp] theorem State.setReg_free (s : State) (a v : Nat) : (s.setReg a v).free = s.free := rfl
@[simp] theorem State.setReg_serial (s : State) (a v : Nat) : (s.setReg a v).serial = s.serial := rfl
@[simp] theorem State.setReg_latchedHigh (s : State) (a v : Nat) : (s.setReg a v).latchedHigh = s.latchedHigh := rfl
@[simp] theorem State.setReg_heldLow (s : State) (a v : Nat) : (s.setReg a v).heldLow = s.heldLow := rfl
@[simp] theorem State.setReg_clk (s : State) (a v : Nat) : (s.setReg a v).clk = s.clk := rfl
@[simp] theorem State.setReg_fr (s : State) (a v : Nat) : (s.setReg a v).fr = s.fr := rfl
@[simp] theorem State.setReg_halls (s : State) (a v : Nat) : (s.setReg a v).halls = s.halls := rfl
@[simp] theorem State.setReg_cores (s : State) (a v : Nat) : (s.setReg a v).cores = s.cores := rfl
@[simp] theorem State.setReg_flight (s : State) (a v : Nat) : (s.setReg a v).flight = s.flight := rfl
@[simp] theorem State.setReg_mem (s : State) (a v : Nat) : (s.setReg a v).mem = s.mem := rfl
@[simp] theorem State.setReg_ctxs (s : State) (a v : Nat) : (s.setReg a v).ctxs = s.ctxs := rfl
@[simp] theorem State.setReg_ls (s : State) (a v : Nat) : (s.setReg a v).ls = s.ls := rfl
@[simp] theorem State.setReg_rings (s : State) (a v : Nat) : (s.setReg a v).rings = s.rings := rfl
@[simp] theorem State.setReg_mboxes (s : State) (a v : Nat) : (s.setReg a v).mboxes = s.mboxes := rfl
@[simp] theorem State.setReg_pcie (s : State) (a v : Nat) : (s.setReg a v).pcie = s.pcie := rfl
@[simp] theorem State.setReg_srcWin (s : State) (a v : Nat) : (s.setReg a v).srcWin = s.srcWin := rfl
@[simp] theorem State.setReg_dies (s : State) (a v : Nat) : (s.setReg a v).dies = s.dies := rfl
@[simp] theorem State.setReg_devStep (s : State) (a v : Nat) : (s.setReg a v).devStep = s.devStep := rfl
@[simp] theorem State.setReg_dumps (s : State) (a v : Nat) : (s.setReg a v).dumps = s.dumps := rfl
@[simp] theorem State.setReg_powerCycleReq (s : State) (a v : Nat) : (s.setReg a v).powerCycleReq = s.powerCycleReq := rfl
@[simp] theorem State.setReg_powerCycleCopy (s : State) (a v : Nat) : (s.setReg a v).powerCycleCopy = s.powerCycleCopy := rfl
@[simp] theorem State.setReg_dumpCopies (s : State) (a v : Nat) : (s.setReg a v).dumpCopies = s.dumpCopies := rfl
@[simp] theorem State.setReg_bring (s : State) (a v : Nat) : (s.setReg a v).bring = s.bring := rfl
@[simp] theorem State.setReg_ports (s : State) (a v : Nat) : (s.setReg a v).ports = s.ports := rfl
@[simp] theorem State.setReg_sec (s : State) (a v : Nat) : (s.setReg a v).sec = s.sec := rfl
@[simp] theorem State.setReg_power (s : State) (a v : Nat) : (s.setReg a v).power = s.power := rfl
@[simp] theorem State.setReg_cables (s : State) (a v : Nat) : (s.setReg a v).cables = s.cables := rfl
@[simp] theorem State.setReg_core (s : State) (a v : Nat) (j : Nat) : (s.setReg a v).core j = s.core j := rfl
@[simp] theorem State.setReg_hall (s : State) (a v : Nat) (j : Nat) : (s.setReg a v).hall j = s.hall j := rfl
@[simp] theorem State.setReg_ctx (s : State) (a v : Nat) (j : Nat) : (s.setReg a v).ctx j = s.ctx j := rfl
@[simp] theorem State.setReg_ring (s : State) (a v : Nat) (j : Nat) : (s.setReg a v).ring j = s.ring j := rfl
@[simp] theorem State.setReg_byte (s : State) (a v : Nat) (j : Nat) : (s.setReg a v).byte j = s.byte j := rfl
@[simp] theorem State.setReg_timeNs (s : State) (a v : Nat) : (s.setReg a v).timeNs = s.timeNs := rfl
@[simp] theorem State.setReg_inStep (s : State) (a v : Nat) (j : Nat) : (s.setReg a v).inStep j = s.inStep j := rfl
@[simp] theorem State.setReg_holderOf (s : State) (a v : Nat) (j : Nat) : (s.setReg a v).holderOf j = s.holderOf j := rfl

/-! ### setFld -/

@[simp] theorem State.setFld_pending (s : State) (a hi lo v : Nat) : (s.setFld a hi lo v).pending = s.pending := rfl
@[simp] theorem State.setFld_out (s : State) (a hi lo v : Nat) : (s.setFld a hi lo v).out = s.out := rfl
@[simp] theorem State.setFld_free (s : State) (a hi lo v : Nat) : (s.setFld a hi lo v).free = s.free := rfl
@[simp] theorem State.setFld_serial (s : State) (a hi lo v : Nat) : (s.setFld a hi lo v).serial = s.serial := rfl
@[simp] theorem State.setFld_latchedHigh (s : State) (a hi lo v : Nat) : (s.setFld a hi lo v).latchedHigh = s.latchedHigh := rfl
@[simp] theorem State.setFld_heldLow (s : State) (a hi lo v : Nat) : (s.setFld a hi lo v).heldLow = s.heldLow := rfl
@[simp] theorem State.setFld_clk (s : State) (a hi lo v : Nat) : (s.setFld a hi lo v).clk = s.clk := rfl
@[simp] theorem State.setFld_fr (s : State) (a hi lo v : Nat) : (s.setFld a hi lo v).fr = s.fr := rfl
@[simp] theorem State.setFld_halls (s : State) (a hi lo v : Nat) : (s.setFld a hi lo v).halls = s.halls := rfl
@[simp] theorem State.setFld_cores (s : State) (a hi lo v : Nat) : (s.setFld a hi lo v).cores = s.cores := rfl
@[simp] theorem State.setFld_flight (s : State) (a hi lo v : Nat) : (s.setFld a hi lo v).flight = s.flight := rfl
@[simp] theorem State.setFld_mem (s : State) (a hi lo v : Nat) : (s.setFld a hi lo v).mem = s.mem := rfl
@[simp] theorem State.setFld_ctxs (s : State) (a hi lo v : Nat) : (s.setFld a hi lo v).ctxs = s.ctxs := rfl
@[simp] theorem State.setFld_ls (s : State) (a hi lo v : Nat) : (s.setFld a hi lo v).ls = s.ls := rfl
@[simp] theorem State.setFld_rings (s : State) (a hi lo v : Nat) : (s.setFld a hi lo v).rings = s.rings := rfl
@[simp] theorem State.setFld_mboxes (s : State) (a hi lo v : Nat) : (s.setFld a hi lo v).mboxes = s.mboxes := rfl
@[simp] theorem State.setFld_pcie (s : State) (a hi lo v : Nat) : (s.setFld a hi lo v).pcie = s.pcie := rfl
@[simp] theorem State.setFld_srcWin (s : State) (a hi lo v : Nat) : (s.setFld a hi lo v).srcWin = s.srcWin := rfl
@[simp] theorem State.setFld_dies (s : State) (a hi lo v : Nat) : (s.setFld a hi lo v).dies = s.dies := rfl
@[simp] theorem State.setFld_devStep (s : State) (a hi lo v : Nat) : (s.setFld a hi lo v).devStep = s.devStep := rfl
@[simp] theorem State.setFld_dumps (s : State) (a hi lo v : Nat) : (s.setFld a hi lo v).dumps = s.dumps := rfl
@[simp] theorem State.setFld_powerCycleReq (s : State) (a hi lo v : Nat) : (s.setFld a hi lo v).powerCycleReq = s.powerCycleReq := rfl
@[simp] theorem State.setFld_powerCycleCopy (s : State) (a hi lo v : Nat) : (s.setFld a hi lo v).powerCycleCopy = s.powerCycleCopy := rfl
@[simp] theorem State.setFld_dumpCopies (s : State) (a hi lo v : Nat) : (s.setFld a hi lo v).dumpCopies = s.dumpCopies := rfl
@[simp] theorem State.setFld_bring (s : State) (a hi lo v : Nat) : (s.setFld a hi lo v).bring = s.bring := rfl
@[simp] theorem State.setFld_ports (s : State) (a hi lo v : Nat) : (s.setFld a hi lo v).ports = s.ports := rfl
@[simp] theorem State.setFld_sec (s : State) (a hi lo v : Nat) : (s.setFld a hi lo v).sec = s.sec := rfl
@[simp] theorem State.setFld_power (s : State) (a hi lo v : Nat) : (s.setFld a hi lo v).power = s.power := rfl
@[simp] theorem State.setFld_cables (s : State) (a hi lo v : Nat) : (s.setFld a hi lo v).cables = s.cables := rfl
@[simp] theorem State.setFld_core (s : State) (a hi lo v : Nat) (j : Nat) : (s.setFld a hi lo v).core j = s.core j := rfl
@[simp] theorem State.setFld_hall (s : State) (a hi lo v : Nat) (j : Nat) : (s.setFld a hi lo v).hall j = s.hall j := rfl
@[simp] theorem State.setFld_ctx (s : State) (a hi lo v : Nat) (j : Nat) : (s.setFld a hi lo v).ctx j = s.ctx j := rfl
@[simp] theorem State.setFld_ring (s : State) (a hi lo v : Nat) (j : Nat) : (s.setFld a hi lo v).ring j = s.ring j := rfl
@[simp] theorem State.setFld_byte (s : State) (a hi lo v : Nat) (j : Nat) : (s.setFld a hi lo v).byte j = s.byte j := rfl
@[simp] theorem State.setFld_timeNs (s : State) (a hi lo v : Nat) : (s.setFld a hi lo v).timeNs = s.timeNs := rfl
@[simp] theorem State.setFld_inStep (s : State) (a hi lo v : Nat) (j : Nat) : (s.setFld a hi lo v).inStep j = s.inStep j := rfl
@[simp] theorem State.setFld_holderOf (s : State) (a hi lo v : Nat) (j : Nat) : (s.setFld a hi lo v).holderOf j = s.holderOf j := rfl

/-! ### count -/

@[simp] theorem State.count_pending (s : State) (a n : Nat) : (s.count a n).pending = s.pending := rfl
@[simp] theorem State.count_out (s : State) (a n : Nat) : (s.count a n).out = s.out := rfl
@[simp] theorem State.count_free (s : State) (a n : Nat) : (s.count a n).free = s.free := rfl
@[simp] theorem State.count_serial (s : State) (a n : Nat) : (s.count a n).serial = s.serial := rfl
@[simp] theorem State.count_latchedHigh (s : State) (a n : Nat) : (s.count a n).latchedHigh = s.latchedHigh := rfl
@[simp] theorem State.count_heldLow (s : State) (a n : Nat) : (s.count a n).heldLow = s.heldLow := rfl
@[simp] theorem State.count_clk (s : State) (a n : Nat) : (s.count a n).clk = s.clk := rfl
@[simp] theorem State.count_fr (s : State) (a n : Nat) : (s.count a n).fr = s.fr := rfl
@[simp] theorem State.count_halls (s : State) (a n : Nat) : (s.count a n).halls = s.halls := rfl
@[simp] theorem State.count_cores (s : State) (a n : Nat) : (s.count a n).cores = s.cores := rfl
@[simp] theorem State.count_flight (s : State) (a n : Nat) : (s.count a n).flight = s.flight := rfl
@[simp] theorem State.count_mem (s : State) (a n : Nat) : (s.count a n).mem = s.mem := rfl
@[simp] theorem State.count_ctxs (s : State) (a n : Nat) : (s.count a n).ctxs = s.ctxs := rfl
@[simp] theorem State.count_ls (s : State) (a n : Nat) : (s.count a n).ls = s.ls := rfl
@[simp] theorem State.count_rings (s : State) (a n : Nat) : (s.count a n).rings = s.rings := rfl
@[simp] theorem State.count_mboxes (s : State) (a n : Nat) : (s.count a n).mboxes = s.mboxes := rfl
@[simp] theorem State.count_pcie (s : State) (a n : Nat) : (s.count a n).pcie = s.pcie := rfl
@[simp] theorem State.count_srcWin (s : State) (a n : Nat) : (s.count a n).srcWin = s.srcWin := rfl
@[simp] theorem State.count_dies (s : State) (a n : Nat) : (s.count a n).dies = s.dies := rfl
@[simp] theorem State.count_devStep (s : State) (a n : Nat) : (s.count a n).devStep = s.devStep := rfl
@[simp] theorem State.count_dumps (s : State) (a n : Nat) : (s.count a n).dumps = s.dumps := rfl
@[simp] theorem State.count_powerCycleReq (s : State) (a n : Nat) : (s.count a n).powerCycleReq = s.powerCycleReq := rfl
@[simp] theorem State.count_powerCycleCopy (s : State) (a n : Nat) : (s.count a n).powerCycleCopy = s.powerCycleCopy := rfl
@[simp] theorem State.count_dumpCopies (s : State) (a n : Nat) : (s.count a n).dumpCopies = s.dumpCopies := rfl
@[simp] theorem State.count_bring (s : State) (a n : Nat) : (s.count a n).bring = s.bring := rfl
@[simp] theorem State.count_ports (s : State) (a n : Nat) : (s.count a n).ports = s.ports := rfl
@[simp] theorem State.count_sec (s : State) (a n : Nat) : (s.count a n).sec = s.sec := rfl
@[simp] theorem State.count_power (s : State) (a n : Nat) : (s.count a n).power = s.power := rfl
@[simp] theorem State.count_cables (s : State) (a n : Nat) : (s.count a n).cables = s.cables := rfl
@[simp] theorem State.count_core (s : State) (a n : Nat) (j : Nat) : (s.count a n).core j = s.core j := rfl
@[simp] theorem State.count_hall (s : State) (a n : Nat) (j : Nat) : (s.count a n).hall j = s.hall j := rfl
@[simp] theorem State.count_ctx (s : State) (a n : Nat) (j : Nat) : (s.count a n).ctx j = s.ctx j := rfl
@[simp] theorem State.count_ring (s : State) (a n : Nat) (j : Nat) : (s.count a n).ring j = s.ring j := rfl
@[simp] theorem State.count_byte (s : State) (a n : Nat) (j : Nat) : (s.count a n).byte j = s.byte j := rfl
@[simp] theorem State.count_timeNs (s : State) (a n : Nat) : (s.count a n).timeNs = s.timeNs := rfl
@[simp] theorem State.count_inStep (s : State) (a n : Nat) (j : Nat) : (s.count a n).inStep j = s.inStep j := rfl
@[simp] theorem State.count_holderOf (s : State) (a n : Nat) (j : Nat) : (s.count a n).holderOf j = s.holderOf j := rfl

/-! ### count64 -/

@[simp] theorem State.count64_pending (s : State) (a n : Nat) : (s.count64 a n).pending = s.pending := rfl
@[simp] theorem State.count64_out (s : State) (a n : Nat) : (s.count64 a n).out = s.out := rfl
@[simp] theorem State.count64_free (s : State) (a n : Nat) : (s.count64 a n).free = s.free := rfl
@[simp] theorem State.count64_serial (s : State) (a n : Nat) : (s.count64 a n).serial = s.serial := rfl
@[simp] theorem State.count64_latchedHigh (s : State) (a n : Nat) : (s.count64 a n).latchedHigh = s.latchedHigh := rfl
@[simp] theorem State.count64_heldLow (s : State) (a n : Nat) : (s.count64 a n).heldLow = s.heldLow := rfl
@[simp] theorem State.count64_clk (s : State) (a n : Nat) : (s.count64 a n).clk = s.clk := rfl
@[simp] theorem State.count64_fr (s : State) (a n : Nat) : (s.count64 a n).fr = s.fr := rfl
@[simp] theorem State.count64_halls (s : State) (a n : Nat) : (s.count64 a n).halls = s.halls := rfl
@[simp] theorem State.count64_cores (s : State) (a n : Nat) : (s.count64 a n).cores = s.cores := rfl
@[simp] theorem State.count64_flight (s : State) (a n : Nat) : (s.count64 a n).flight = s.flight := rfl
@[simp] theorem State.count64_mem (s : State) (a n : Nat) : (s.count64 a n).mem = s.mem := rfl
@[simp] theorem State.count64_ctxs (s : State) (a n : Nat) : (s.count64 a n).ctxs = s.ctxs := rfl
@[simp] theorem State.count64_ls (s : State) (a n : Nat) : (s.count64 a n).ls = s.ls := rfl
@[simp] theorem State.count64_rings (s : State) (a n : Nat) : (s.count64 a n).rings = s.rings := rfl
@[simp] theorem State.count64_mboxes (s : State) (a n : Nat) : (s.count64 a n).mboxes = s.mboxes := rfl
@[simp] theorem State.count64_pcie (s : State) (a n : Nat) : (s.count64 a n).pcie = s.pcie := rfl
@[simp] theorem State.count64_srcWin (s : State) (a n : Nat) : (s.count64 a n).srcWin = s.srcWin := rfl
@[simp] theorem State.count64_dies (s : State) (a n : Nat) : (s.count64 a n).dies = s.dies := rfl
@[simp] theorem State.count64_devStep (s : State) (a n : Nat) : (s.count64 a n).devStep = s.devStep := rfl
@[simp] theorem State.count64_dumps (s : State) (a n : Nat) : (s.count64 a n).dumps = s.dumps := rfl
@[simp] theorem State.count64_powerCycleReq (s : State) (a n : Nat) : (s.count64 a n).powerCycleReq = s.powerCycleReq := rfl
@[simp] theorem State.count64_powerCycleCopy (s : State) (a n : Nat) : (s.count64 a n).powerCycleCopy = s.powerCycleCopy := rfl
@[simp] theorem State.count64_dumpCopies (s : State) (a n : Nat) : (s.count64 a n).dumpCopies = s.dumpCopies := rfl
@[simp] theorem State.count64_bring (s : State) (a n : Nat) : (s.count64 a n).bring = s.bring := rfl
@[simp] theorem State.count64_ports (s : State) (a n : Nat) : (s.count64 a n).ports = s.ports := rfl
@[simp] theorem State.count64_sec (s : State) (a n : Nat) : (s.count64 a n).sec = s.sec := rfl
@[simp] theorem State.count64_power (s : State) (a n : Nat) : (s.count64 a n).power = s.power := rfl
@[simp] theorem State.count64_cables (s : State) (a n : Nat) : (s.count64 a n).cables = s.cables := rfl
@[simp] theorem State.count64_core (s : State) (a n : Nat) (j : Nat) : (s.count64 a n).core j = s.core j := rfl
@[simp] theorem State.count64_hall (s : State) (a n : Nat) (j : Nat) : (s.count64 a n).hall j = s.hall j := rfl
@[simp] theorem State.count64_ctx (s : State) (a n : Nat) (j : Nat) : (s.count64 a n).ctx j = s.ctx j := rfl
@[simp] theorem State.count64_ring (s : State) (a n : Nat) (j : Nat) : (s.count64 a n).ring j = s.ring j := rfl
@[simp] theorem State.count64_byte (s : State) (a n : Nat) (j : Nat) : (s.count64 a n).byte j = s.byte j := rfl
@[simp] theorem State.count64_timeNs (s : State) (a n : Nat) : (s.count64 a n).timeNs = s.timeNs := rfl
@[simp] theorem State.count64_inStep (s : State) (a n : Nat) (j : Nat) : (s.count64 a n).inStep j = s.inStep j := rfl
@[simp] theorem State.count64_holderOf (s : State) (a n : Nat) (j : Nat) : (s.count64 a n).holderOf j = s.holderOf j := rfl

/-! ### resetRegs -/

@[simp] theorem State.resetRegs_pending (s : State) (lo hi : Nat) : (s.resetRegs lo hi).pending = s.pending := rfl
@[simp] theorem State.resetRegs_out (s : State) (lo hi : Nat) : (s.resetRegs lo hi).out = s.out := rfl
@[simp] theorem State.resetRegs_free (s : State) (lo hi : Nat) : (s.resetRegs lo hi).free = s.free := rfl
@[simp] theorem State.resetRegs_serial (s : State) (lo hi : Nat) : (s.resetRegs lo hi).serial = s.serial := rfl
@[simp] theorem State.resetRegs_clk (s : State) (lo hi : Nat) : (s.resetRegs lo hi).clk = s.clk := rfl
@[simp] theorem State.resetRegs_fr (s : State) (lo hi : Nat) : (s.resetRegs lo hi).fr = s.fr := rfl
@[simp] theorem State.resetRegs_halls (s : State) (lo hi : Nat) : (s.resetRegs lo hi).halls = s.halls := rfl
@[simp] theorem State.resetRegs_cores (s : State) (lo hi : Nat) : (s.resetRegs lo hi).cores = s.cores := rfl
@[simp] theorem State.resetRegs_flight (s : State) (lo hi : Nat) : (s.resetRegs lo hi).flight = s.flight := rfl
@[simp] theorem State.resetRegs_mem (s : State) (lo hi : Nat) : (s.resetRegs lo hi).mem = s.mem := rfl
@[simp] theorem State.resetRegs_ctxs (s : State) (lo hi : Nat) : (s.resetRegs lo hi).ctxs = s.ctxs := rfl
@[simp] theorem State.resetRegs_ls (s : State) (lo hi : Nat) : (s.resetRegs lo hi).ls = s.ls := rfl
@[simp] theorem State.resetRegs_rings (s : State) (lo hi : Nat) : (s.resetRegs lo hi).rings = s.rings := rfl
@[simp] theorem State.resetRegs_mboxes (s : State) (lo hi : Nat) : (s.resetRegs lo hi).mboxes = s.mboxes := rfl
@[simp] theorem State.resetRegs_pcie (s : State) (lo hi : Nat) : (s.resetRegs lo hi).pcie = s.pcie := rfl
@[simp] theorem State.resetRegs_srcWin (s : State) (lo hi : Nat) : (s.resetRegs lo hi).srcWin = s.srcWin := rfl
@[simp] theorem State.resetRegs_dies (s : State) (lo hi : Nat) : (s.resetRegs lo hi).dies = s.dies := rfl
@[simp] theorem State.resetRegs_devStep (s : State) (lo hi : Nat) : (s.resetRegs lo hi).devStep = s.devStep := rfl
@[simp] theorem State.resetRegs_dumps (s : State) (lo hi : Nat) : (s.resetRegs lo hi).dumps = s.dumps := rfl
@[simp] theorem State.resetRegs_powerCycleReq (s : State) (lo hi : Nat) : (s.resetRegs lo hi).powerCycleReq = s.powerCycleReq := rfl
@[simp] theorem State.resetRegs_powerCycleCopy (s : State) (lo hi : Nat) : (s.resetRegs lo hi).powerCycleCopy = s.powerCycleCopy := rfl
@[simp] theorem State.resetRegs_dumpCopies (s : State) (lo hi : Nat) : (s.resetRegs lo hi).dumpCopies = s.dumpCopies := rfl
@[simp] theorem State.resetRegs_bring (s : State) (lo hi : Nat) : (s.resetRegs lo hi).bring = s.bring := rfl
@[simp] theorem State.resetRegs_ports (s : State) (lo hi : Nat) : (s.resetRegs lo hi).ports = s.ports := rfl
@[simp] theorem State.resetRegs_sec (s : State) (lo hi : Nat) : (s.resetRegs lo hi).sec = s.sec := rfl
@[simp] theorem State.resetRegs_power (s : State) (lo hi : Nat) : (s.resetRegs lo hi).power = s.power := rfl
@[simp] theorem State.resetRegs_cables (s : State) (lo hi : Nat) : (s.resetRegs lo hi).cables = s.cables := rfl
@[simp] theorem State.resetRegs_core (s : State) (lo hi : Nat) (j : Nat) : (s.resetRegs lo hi).core j = s.core j := rfl
@[simp] theorem State.resetRegs_hall (s : State) (lo hi : Nat) (j : Nat) : (s.resetRegs lo hi).hall j = s.hall j := rfl
@[simp] theorem State.resetRegs_ctx (s : State) (lo hi : Nat) (j : Nat) : (s.resetRegs lo hi).ctx j = s.ctx j := rfl
@[simp] theorem State.resetRegs_ring (s : State) (lo hi : Nat) (j : Nat) : (s.resetRegs lo hi).ring j = s.ring j := rfl
@[simp] theorem State.resetRegs_byte (s : State) (lo hi : Nat) (j : Nat) : (s.resetRegs lo hi).byte j = s.byte j := rfl
@[simp] theorem State.resetRegs_timeNs (s : State) (lo hi : Nat) : (s.resetRegs lo hi).timeNs = s.timeNs := rfl
@[simp] theorem State.resetRegs_inStep (s : State) (lo hi : Nat) (j : Nat) : (s.resetRegs lo hi).inStep j = s.inStep j := rfl
@[simp] theorem State.resetRegs_holderOf (s : State) (lo hi : Nat) (j : Nat) : (s.resetRegs lo hi).holderOf j = s.holderOf j := rfl

/-! ### setCore -/

@[simp] theorem State.setCore_pending (s : State) (n : Nat) (c : Core) : (s.setCore n c).pending = s.pending := rfl
@[simp] theorem State.setCore_out (s : State) (n : Nat) (c : Core) : (s.setCore n c).out = s.out := rfl
@[simp] theorem State.setCore_free (s : State) (n : Nat) (c : Core) : (s.setCore n c).free = s.free := rfl
@[simp] theorem State.setCore_serial (s : State) (n : Nat) (c : Core) : (s.setCore n c).serial = s.serial := rfl
@[simp] theorem State.setCore_regs (s : State) (n : Nat) (c : Core) : (s.setCore n c).regs = s.regs := rfl
@[simp] theorem State.setCore_latchedHigh (s : State) (n : Nat) (c : Core) : (s.setCore n c).latchedHigh = s.latchedHigh := rfl
@[simp] theorem State.setCore_heldLow (s : State) (n : Nat) (c : Core) : (s.setCore n c).heldLow = s.heldLow := rfl
@[simp] theorem State.setCore_clk (s : State) (n : Nat) (c : Core) : (s.setCore n c).clk = s.clk := rfl
@[simp] theorem State.setCore_fr (s : State) (n : Nat) (c : Core) : (s.setCore n c).fr = s.fr := rfl
@[simp] theorem State.setCore_halls (s : State) (n : Nat) (c : Core) : (s.setCore n c).halls = s.halls := rfl
@[simp] theorem State.setCore_flight (s : State) (n : Nat) (c : Core) : (s.setCore n c).flight = s.flight := rfl
@[simp] theorem State.setCore_mem (s : State) (n : Nat) (c : Core) : (s.setCore n c).mem = s.mem := rfl
@[simp] theorem State.setCore_ctxs (s : State) (n : Nat) (c : Core) : (s.setCore n c).ctxs = s.ctxs := rfl
@[simp] theorem State.setCore_ls (s : State) (n : Nat) (c : Core) : (s.setCore n c).ls = s.ls := rfl
@[simp] theorem State.setCore_rings (s : State) (n : Nat) (c : Core) : (s.setCore n c).rings = s.rings := rfl
@[simp] theorem State.setCore_mboxes (s : State) (n : Nat) (c : Core) : (s.setCore n c).mboxes = s.mboxes := rfl
@[simp] theorem State.setCore_pcie (s : State) (n : Nat) (c : Core) : (s.setCore n c).pcie = s.pcie := rfl
@[simp] theorem State.setCore_srcWin (s : State) (n : Nat) (c : Core) : (s.setCore n c).srcWin = s.srcWin := rfl
@[simp] theorem State.setCore_dies (s : State) (n : Nat) (c : Core) : (s.setCore n c).dies = s.dies := rfl
@[simp] theorem State.setCore_devStep (s : State) (n : Nat) (c : Core) : (s.setCore n c).devStep = s.devStep := rfl
@[simp] theorem State.setCore_dumps (s : State) (n : Nat) (c : Core) : (s.setCore n c).dumps = s.dumps := rfl
@[simp] theorem State.setCore_powerCycleReq (s : State) (n : Nat) (c : Core) : (s.setCore n c).powerCycleReq = s.powerCycleReq := rfl
@[simp] theorem State.setCore_powerCycleCopy (s : State) (n : Nat) (c : Core) : (s.setCore n c).powerCycleCopy = s.powerCycleCopy := rfl
@[simp] theorem State.setCore_dumpCopies (s : State) (n : Nat) (c : Core) : (s.setCore n c).dumpCopies = s.dumpCopies := rfl
@[simp] theorem State.setCore_bring (s : State) (n : Nat) (c : Core) : (s.setCore n c).bring = s.bring := rfl
@[simp] theorem State.setCore_ports (s : State) (n : Nat) (c : Core) : (s.setCore n c).ports = s.ports := rfl
@[simp] theorem State.setCore_sec (s : State) (n : Nat) (c : Core) : (s.setCore n c).sec = s.sec := rfl
@[simp] theorem State.setCore_power (s : State) (n : Nat) (c : Core) : (s.setCore n c).power = s.power := rfl
@[simp] theorem State.setCore_cables (s : State) (n : Nat) (c : Core) : (s.setCore n c).cables = s.cables := rfl
@[simp] theorem State.setCore_reg (s : State) (n : Nat) (c : Core) (j : Nat) : (s.setCore n c).reg j = s.reg j := rfl
@[simp] theorem State.setCore_fld (s : State) (n : Nat) (c : Core) (j u w : Nat) : (s.setCore n c).fld j u w = s.fld j u w := rfl
@[simp] theorem State.setCore_hall (s : State) (n : Nat) (c : Core) (j : Nat) : (s.setCore n c).hall j = s.hall j := rfl
@[simp] theorem State.setCore_ctx (s : State) (n : Nat) (c : Core) (j : Nat) : (s.setCore n c).ctx j = s.ctx j := rfl
@[simp] theorem State.setCore_ring (s : State) (n : Nat) (c : Core) (j : Nat) : (s.setCore n c).ring j = s.ring j := rfl
@[simp] theorem State.setCore_byte (s : State) (n : Nat) (c : Core) (j : Nat) : (s.setCore n c).byte j = s.byte j := rfl
@[simp] theorem State.setCore_ready (s : State) (n : Nat) (c : Core) : (s.setCore n c).ready = s.ready := rfl
@[simp] theorem State.setCore_answers (s : State) (n : Nat) (c : Core) : (s.setCore n c).answers = s.answers := rfl
@[simp] theorem State.setCore_timeNs (s : State) (n : Nat) (c : Core) : (s.setCore n c).timeNs = s.timeNs := rfl
@[simp] theorem State.setCore_inStep (s : State) (n : Nat) (c : Core) (j : Nat) : (s.setCore n c).inStep j = s.inStep j := rfl
@[simp] theorem State.setCore_holderOf (s : State) (n : Nat) (c : Core) (j : Nat) : (s.setCore n c).holderOf j = s.holderOf j := rfl

/-! ### onCore -/

@[simp] theorem State.onCore_pending (s : State) (n : Nat) (f : Core → Core) : (s.onCore n f).pending = s.pending := rfl
@[simp] theorem State.onCore_out (s : State) (n : Nat) (f : Core → Core) : (s.onCore n f).out = s.out := rfl
@[simp] theorem State.onCore_free (s : State) (n : Nat) (f : Core → Core) : (s.onCore n f).free = s.free := rfl
@[simp] theorem State.onCore_serial (s : State) (n : Nat) (f : Core → Core) : (s.onCore n f).serial = s.serial := rfl
@[simp] theorem State.onCore_regs (s : State) (n : Nat) (f : Core → Core) : (s.onCore n f).regs = s.regs := rfl
@[simp] theorem State.onCore_latchedHigh (s : State) (n : Nat) (f : Core → Core) : (s.onCore n f).latchedHigh = s.latchedHigh := rfl
@[simp] theorem State.onCore_heldLow (s : State) (n : Nat) (f : Core → Core) : (s.onCore n f).heldLow = s.heldLow := rfl
@[simp] theorem State.onCore_clk (s : State) (n : Nat) (f : Core → Core) : (s.onCore n f).clk = s.clk := rfl
@[simp] theorem State.onCore_fr (s : State) (n : Nat) (f : Core → Core) : (s.onCore n f).fr = s.fr := rfl
@[simp] theorem State.onCore_halls (s : State) (n : Nat) (f : Core → Core) : (s.onCore n f).halls = s.halls := rfl
@[simp] theorem State.onCore_flight (s : State) (n : Nat) (f : Core → Core) : (s.onCore n f).flight = s.flight := rfl
@[simp] theorem State.onCore_mem (s : State) (n : Nat) (f : Core → Core) : (s.onCore n f).mem = s.mem := rfl
@[simp] theorem State.onCore_ctxs (s : State) (n : Nat) (f : Core → Core) : (s.onCore n f).ctxs = s.ctxs := rfl
@[simp] theorem State.onCore_ls (s : State) (n : Nat) (f : Core → Core) : (s.onCore n f).ls = s.ls := rfl
@[simp] theorem State.onCore_rings (s : State) (n : Nat) (f : Core → Core) : (s.onCore n f).rings = s.rings := rfl
@[simp] theorem State.onCore_mboxes (s : State) (n : Nat) (f : Core → Core) : (s.onCore n f).mboxes = s.mboxes := rfl
@[simp] theorem State.onCore_pcie (s : State) (n : Nat) (f : Core → Core) : (s.onCore n f).pcie = s.pcie := rfl
@[simp] theorem State.onCore_srcWin (s : State) (n : Nat) (f : Core → Core) : (s.onCore n f).srcWin = s.srcWin := rfl
@[simp] theorem State.onCore_dies (s : State) (n : Nat) (f : Core → Core) : (s.onCore n f).dies = s.dies := rfl
@[simp] theorem State.onCore_devStep (s : State) (n : Nat) (f : Core → Core) : (s.onCore n f).devStep = s.devStep := rfl
@[simp] theorem State.onCore_dumps (s : State) (n : Nat) (f : Core → Core) : (s.onCore n f).dumps = s.dumps := rfl
@[simp] theorem State.onCore_powerCycleReq (s : State) (n : Nat) (f : Core → Core) : (s.onCore n f).powerCycleReq = s.powerCycleReq := rfl
@[simp] theorem State.onCore_powerCycleCopy (s : State) (n : Nat) (f : Core → Core) : (s.onCore n f).powerCycleCopy = s.powerCycleCopy := rfl
@[simp] theorem State.onCore_dumpCopies (s : State) (n : Nat) (f : Core → Core) : (s.onCore n f).dumpCopies = s.dumpCopies := rfl
@[simp] theorem State.onCore_bring (s : State) (n : Nat) (f : Core → Core) : (s.onCore n f).bring = s.bring := rfl
@[simp] theorem State.onCore_ports (s : State) (n : Nat) (f : Core → Core) : (s.onCore n f).ports = s.ports := rfl
@[simp] theorem State.onCore_sec (s : State) (n : Nat) (f : Core → Core) : (s.onCore n f).sec = s.sec := rfl
@[simp] theorem State.onCore_power (s : State) (n : Nat) (f : Core → Core) : (s.onCore n f).power = s.power := rfl
@[simp] theorem State.onCore_cables (s : State) (n : Nat) (f : Core → Core) : (s.onCore n f).cables = s.cables := rfl
@[simp] theorem State.onCore_reg (s : State) (n : Nat) (f : Core → Core) (j : Nat) : (s.onCore n f).reg j = s.reg j := rfl
@[simp] theorem State.onCore_fld (s : State) (n : Nat) (f : Core → Core) (j u w : Nat) : (s.onCore n f).fld j u w = s.fld j u w := rfl
@[simp] theorem State.onCore_hall (s : State) (n : Nat) (f : Core → Core) (j : Nat) : (s.onCore n f).hall j = s.hall j := rfl
@[simp] theorem State.onCore_ctx (s : State) (n : Nat) (f : Core → Core) (j : Nat) : (s.onCore n f).ctx j = s.ctx j := rfl
@[simp] theorem State.onCore_ring (s : State) (n : Nat) (f : Core → Core) (j : Nat) : (s.onCore n f).ring j = s.ring j := rfl
@[simp] theorem State.onCore_byte (s : State) (n : Nat) (f : Core → Core) (j : Nat) : (s.onCore n f).byte j = s.byte j := rfl
@[simp] theorem State.onCore_ready (s : State) (n : Nat) (f : Core → Core) : (s.onCore n f).ready = s.ready := rfl
@[simp] theorem State.onCore_answers (s : State) (n : Nat) (f : Core → Core) : (s.onCore n f).answers = s.answers := rfl
@[simp] theorem State.onCore_timeNs (s : State) (n : Nat) (f : Core → Core) : (s.onCore n f).timeNs = s.timeNs := rfl
@[simp] theorem State.onCore_inStep (s : State) (n : Nat) (f : Core → Core) (j : Nat) : (s.onCore n f).inStep j = s.inStep j := rfl
@[simp] theorem State.onCore_holderOf (s : State) (n : Nat) (f : Core → Core) (j : Nat) : (s.onCore n f).holderOf j = s.holderOf j := rfl

/-! ### onCp -/

@[simp] theorem State.onCp_pending (s : State) (n : Nat) (f : Cp → Cp) : (s.onCp n f).pending = s.pending := rfl
@[simp] theorem State.onCp_out (s : State) (n : Nat) (f : Cp → Cp) : (s.onCp n f).out = s.out := rfl
@[simp] theorem State.onCp_free (s : State) (n : Nat) (f : Cp → Cp) : (s.onCp n f).free = s.free := rfl
@[simp] theorem State.onCp_serial (s : State) (n : Nat) (f : Cp → Cp) : (s.onCp n f).serial = s.serial := rfl
@[simp] theorem State.onCp_regs (s : State) (n : Nat) (f : Cp → Cp) : (s.onCp n f).regs = s.regs := rfl
@[simp] theorem State.onCp_latchedHigh (s : State) (n : Nat) (f : Cp → Cp) : (s.onCp n f).latchedHigh = s.latchedHigh := rfl
@[simp] theorem State.onCp_heldLow (s : State) (n : Nat) (f : Cp → Cp) : (s.onCp n f).heldLow = s.heldLow := rfl
@[simp] theorem State.onCp_clk (s : State) (n : Nat) (f : Cp → Cp) : (s.onCp n f).clk = s.clk := rfl
@[simp] theorem State.onCp_fr (s : State) (n : Nat) (f : Cp → Cp) : (s.onCp n f).fr = s.fr := rfl
@[simp] theorem State.onCp_halls (s : State) (n : Nat) (f : Cp → Cp) : (s.onCp n f).halls = s.halls := rfl
@[simp] theorem State.onCp_flight (s : State) (n : Nat) (f : Cp → Cp) : (s.onCp n f).flight = s.flight := rfl
@[simp] theorem State.onCp_mem (s : State) (n : Nat) (f : Cp → Cp) : (s.onCp n f).mem = s.mem := rfl
@[simp] theorem State.onCp_ctxs (s : State) (n : Nat) (f : Cp → Cp) : (s.onCp n f).ctxs = s.ctxs := rfl
@[simp] theorem State.onCp_ls (s : State) (n : Nat) (f : Cp → Cp) : (s.onCp n f).ls = s.ls := rfl
@[simp] theorem State.onCp_rings (s : State) (n : Nat) (f : Cp → Cp) : (s.onCp n f).rings = s.rings := rfl
@[simp] theorem State.onCp_mboxes (s : State) (n : Nat) (f : Cp → Cp) : (s.onCp n f).mboxes = s.mboxes := rfl
@[simp] theorem State.onCp_pcie (s : State) (n : Nat) (f : Cp → Cp) : (s.onCp n f).pcie = s.pcie := rfl
@[simp] theorem State.onCp_srcWin (s : State) (n : Nat) (f : Cp → Cp) : (s.onCp n f).srcWin = s.srcWin := rfl
@[simp] theorem State.onCp_dies (s : State) (n : Nat) (f : Cp → Cp) : (s.onCp n f).dies = s.dies := rfl
@[simp] theorem State.onCp_devStep (s : State) (n : Nat) (f : Cp → Cp) : (s.onCp n f).devStep = s.devStep := rfl
@[simp] theorem State.onCp_dumps (s : State) (n : Nat) (f : Cp → Cp) : (s.onCp n f).dumps = s.dumps := rfl
@[simp] theorem State.onCp_powerCycleReq (s : State) (n : Nat) (f : Cp → Cp) : (s.onCp n f).powerCycleReq = s.powerCycleReq := rfl
@[simp] theorem State.onCp_powerCycleCopy (s : State) (n : Nat) (f : Cp → Cp) : (s.onCp n f).powerCycleCopy = s.powerCycleCopy := rfl
@[simp] theorem State.onCp_dumpCopies (s : State) (n : Nat) (f : Cp → Cp) : (s.onCp n f).dumpCopies = s.dumpCopies := rfl
@[simp] theorem State.onCp_bring (s : State) (n : Nat) (f : Cp → Cp) : (s.onCp n f).bring = s.bring := rfl
@[simp] theorem State.onCp_ports (s : State) (n : Nat) (f : Cp → Cp) : (s.onCp n f).ports = s.ports := rfl
@[simp] theorem State.onCp_sec (s : State) (n : Nat) (f : Cp → Cp) : (s.onCp n f).sec = s.sec := rfl
@[simp] theorem State.onCp_power (s : State) (n : Nat) (f : Cp → Cp) : (s.onCp n f).power = s.power := rfl
@[simp] theorem State.onCp_cables (s : State) (n : Nat) (f : Cp → Cp) : (s.onCp n f).cables = s.cables := rfl
@[simp] theorem State.onCp_reg (s : State) (n : Nat) (f : Cp → Cp) (j : Nat) : (s.onCp n f).reg j = s.reg j := rfl
@[simp] theorem State.onCp_fld (s : State) (n : Nat) (f : Cp → Cp) (j u w : Nat) : (s.onCp n f).fld j u w = s.fld j u w := rfl
@[simp] theorem State.onCp_hall (s : State) (n : Nat) (f : Cp → Cp) (j : Nat) : (s.onCp n f).hall j = s.hall j := rfl
@[simp] theorem State.onCp_ctx (s : State) (n : Nat) (f : Cp → Cp) (j : Nat) : (s.onCp n f).ctx j = s.ctx j := rfl
@[simp] theorem State.onCp_ring (s : State) (n : Nat) (f : Cp → Cp) (j : Nat) : (s.onCp n f).ring j = s.ring j := rfl
@[simp] theorem State.onCp_byte (s : State) (n : Nat) (f : Cp → Cp) (j : Nat) : (s.onCp n f).byte j = s.byte j := rfl
@[simp] theorem State.onCp_ready (s : State) (n : Nat) (f : Cp → Cp) : (s.onCp n f).ready = s.ready := rfl
@[simp] theorem State.onCp_answers (s : State) (n : Nat) (f : Cp → Cp) : (s.onCp n f).answers = s.answers := rfl
@[simp] theorem State.onCp_timeNs (s : State) (n : Nat) (f : Cp → Cp) : (s.onCp n f).timeNs = s.timeNs := rfl
@[simp] theorem State.onCp_inStep (s : State) (n : Nat) (f : Cp → Cp) (j : Nat) : (s.onCp n f).inStep j = s.inStep j := rfl
@[simp] theorem State.onCp_holderOf (s : State) (n : Nat) (f : Cp → Cp) (j : Nat) : (s.onCp n f).holderOf j = s.holderOf j := rfl

/-! ### onSeq -/

@[simp] theorem State.onSeq_pending (s : State) (n : Nat) (f : Seq → Seq) : (s.onSeq n f).pending = s.pending := rfl
@[simp] theorem State.onSeq_out (s : State) (n : Nat) (f : Seq → Seq) : (s.onSeq n f).out = s.out := rfl
@[simp] theorem State.onSeq_free (s : State) (n : Nat) (f : Seq → Seq) : (s.onSeq n f).free = s.free := rfl
@[simp] theorem State.onSeq_serial (s : State) (n : Nat) (f : Seq → Seq) : (s.onSeq n f).serial = s.serial := rfl
@[simp] theorem State.onSeq_regs (s : State) (n : Nat) (f : Seq → Seq) : (s.onSeq n f).regs = s.regs := rfl
@[simp] theorem State.onSeq_latchedHigh (s : State) (n : Nat) (f : Seq → Seq) : (s.onSeq n f).latchedHigh = s.latchedHigh := rfl
@[simp] theorem State.onSeq_heldLow (s : State) (n : Nat) (f : Seq → Seq) : (s.onSeq n f).heldLow = s.heldLow := rfl
@[simp] theorem State.onSeq_clk (s : State) (n : Nat) (f : Seq → Seq) : (s.onSeq n f).clk = s.clk := rfl
@[simp] theorem State.onSeq_fr (s : State) (n : Nat) (f : Seq → Seq) : (s.onSeq n f).fr = s.fr := rfl
@[simp] theorem State.onSeq_halls (s : State) (n : Nat) (f : Seq → Seq) : (s.onSeq n f).halls = s.halls := rfl
@[simp] theorem State.onSeq_flight (s : State) (n : Nat) (f : Seq → Seq) : (s.onSeq n f).flight = s.flight := rfl
@[simp] theorem State.onSeq_mem (s : State) (n : Nat) (f : Seq → Seq) : (s.onSeq n f).mem = s.mem := rfl
@[simp] theorem State.onSeq_ctxs (s : State) (n : Nat) (f : Seq → Seq) : (s.onSeq n f).ctxs = s.ctxs := rfl
@[simp] theorem State.onSeq_ls (s : State) (n : Nat) (f : Seq → Seq) : (s.onSeq n f).ls = s.ls := rfl
@[simp] theorem State.onSeq_rings (s : State) (n : Nat) (f : Seq → Seq) : (s.onSeq n f).rings = s.rings := rfl
@[simp] theorem State.onSeq_mboxes (s : State) (n : Nat) (f : Seq → Seq) : (s.onSeq n f).mboxes = s.mboxes := rfl
@[simp] theorem State.onSeq_pcie (s : State) (n : Nat) (f : Seq → Seq) : (s.onSeq n f).pcie = s.pcie := rfl
@[simp] theorem State.onSeq_srcWin (s : State) (n : Nat) (f : Seq → Seq) : (s.onSeq n f).srcWin = s.srcWin := rfl
@[simp] theorem State.onSeq_dies (s : State) (n : Nat) (f : Seq → Seq) : (s.onSeq n f).dies = s.dies := rfl
@[simp] theorem State.onSeq_devStep (s : State) (n : Nat) (f : Seq → Seq) : (s.onSeq n f).devStep = s.devStep := rfl
@[simp] theorem State.onSeq_dumps (s : State) (n : Nat) (f : Seq → Seq) : (s.onSeq n f).dumps = s.dumps := rfl
@[simp] theorem State.onSeq_powerCycleReq (s : State) (n : Nat) (f : Seq → Seq) : (s.onSeq n f).powerCycleReq = s.powerCycleReq := rfl
@[simp] theorem State.onSeq_powerCycleCopy (s : State) (n : Nat) (f : Seq → Seq) : (s.onSeq n f).powerCycleCopy = s.powerCycleCopy := rfl
@[simp] theorem State.onSeq_dumpCopies (s : State) (n : Nat) (f : Seq → Seq) : (s.onSeq n f).dumpCopies = s.dumpCopies := rfl
@[simp] theorem State.onSeq_bring (s : State) (n : Nat) (f : Seq → Seq) : (s.onSeq n f).bring = s.bring := rfl
@[simp] theorem State.onSeq_ports (s : State) (n : Nat) (f : Seq → Seq) : (s.onSeq n f).ports = s.ports := rfl
@[simp] theorem State.onSeq_sec (s : State) (n : Nat) (f : Seq → Seq) : (s.onSeq n f).sec = s.sec := rfl
@[simp] theorem State.onSeq_power (s : State) (n : Nat) (f : Seq → Seq) : (s.onSeq n f).power = s.power := rfl
@[simp] theorem State.onSeq_cables (s : State) (n : Nat) (f : Seq → Seq) : (s.onSeq n f).cables = s.cables := rfl
@[simp] theorem State.onSeq_reg (s : State) (n : Nat) (f : Seq → Seq) (j : Nat) : (s.onSeq n f).reg j = s.reg j := rfl
@[simp] theorem State.onSeq_fld (s : State) (n : Nat) (f : Seq → Seq) (j u w : Nat) : (s.onSeq n f).fld j u w = s.fld j u w := rfl
@[simp] theorem State.onSeq_hall (s : State) (n : Nat) (f : Seq → Seq) (j : Nat) : (s.onSeq n f).hall j = s.hall j := rfl
@[simp] theorem State.onSeq_ctx (s : State) (n : Nat) (f : Seq → Seq) (j : Nat) : (s.onSeq n f).ctx j = s.ctx j := rfl
@[simp] theorem State.onSeq_ring (s : State) (n : Nat) (f : Seq → Seq) (j : Nat) : (s.onSeq n f).ring j = s.ring j := rfl
@[simp] theorem State.onSeq_byte (s : State) (n : Nat) (f : Seq → Seq) (j : Nat) : (s.onSeq n f).byte j = s.byte j := rfl
@[simp] theorem State.onSeq_ready (s : State) (n : Nat) (f : Seq → Seq) : (s.onSeq n f).ready = s.ready := rfl
@[simp] theorem State.onSeq_answers (s : State) (n : Nat) (f : Seq → Seq) : (s.onSeq n f).answers = s.answers := rfl
@[simp] theorem State.onSeq_timeNs (s : State) (n : Nat) (f : Seq → Seq) : (s.onSeq n f).timeNs = s.timeNs := rfl
@[simp] theorem State.onSeq_inStep (s : State) (n : Nat) (f : Seq → Seq) (j : Nat) : (s.onSeq n f).inStep j = s.inStep j := rfl
@[simp] theorem State.onSeq_holderOf (s : State) (n : Nat) (f : Seq → Seq) (j : Nat) : (s.onSeq n f).holderOf j = s.holderOf j := rfl

/-! ### onHall -/

@[simp] theorem State.onHall_pending (s : State) (h : Nat) (f : Hall → Hall) : (s.onHall h f).pending = s.pending := rfl
@[simp] theorem State.onHall_out (s : State) (h : Nat) (f : Hall → Hall) : (s.onHall h f).out = s.out := rfl
@[simp] theorem State.onHall_free (s : State) (h : Nat) (f : Hall → Hall) : (s.onHall h f).free = s.free := rfl
@[simp] theorem State.onHall_serial (s : State) (h : Nat) (f : Hall → Hall) : (s.onHall h f).serial = s.serial := rfl
@[simp] theorem State.onHall_regs (s : State) (h : Nat) (f : Hall → Hall) : (s.onHall h f).regs = s.regs := rfl
@[simp] theorem State.onHall_latchedHigh (s : State) (h : Nat) (f : Hall → Hall) : (s.onHall h f).latchedHigh = s.latchedHigh := rfl
@[simp] theorem State.onHall_heldLow (s : State) (h : Nat) (f : Hall → Hall) : (s.onHall h f).heldLow = s.heldLow := rfl
@[simp] theorem State.onHall_clk (s : State) (h : Nat) (f : Hall → Hall) : (s.onHall h f).clk = s.clk := rfl
@[simp] theorem State.onHall_fr (s : State) (h : Nat) (f : Hall → Hall) : (s.onHall h f).fr = s.fr := rfl
@[simp] theorem State.onHall_cores (s : State) (h : Nat) (f : Hall → Hall) : (s.onHall h f).cores = s.cores := rfl
@[simp] theorem State.onHall_flight (s : State) (h : Nat) (f : Hall → Hall) : (s.onHall h f).flight = s.flight := rfl
@[simp] theorem State.onHall_mem (s : State) (h : Nat) (f : Hall → Hall) : (s.onHall h f).mem = s.mem := rfl
@[simp] theorem State.onHall_ctxs (s : State) (h : Nat) (f : Hall → Hall) : (s.onHall h f).ctxs = s.ctxs := rfl
@[simp] theorem State.onHall_ls (s : State) (h : Nat) (f : Hall → Hall) : (s.onHall h f).ls = s.ls := rfl
@[simp] theorem State.onHall_rings (s : State) (h : Nat) (f : Hall → Hall) : (s.onHall h f).rings = s.rings := rfl
@[simp] theorem State.onHall_mboxes (s : State) (h : Nat) (f : Hall → Hall) : (s.onHall h f).mboxes = s.mboxes := rfl
@[simp] theorem State.onHall_pcie (s : State) (h : Nat) (f : Hall → Hall) : (s.onHall h f).pcie = s.pcie := rfl
@[simp] theorem State.onHall_srcWin (s : State) (h : Nat) (f : Hall → Hall) : (s.onHall h f).srcWin = s.srcWin := rfl
@[simp] theorem State.onHall_dies (s : State) (h : Nat) (f : Hall → Hall) : (s.onHall h f).dies = s.dies := rfl
@[simp] theorem State.onHall_devStep (s : State) (h : Nat) (f : Hall → Hall) : (s.onHall h f).devStep = s.devStep := rfl
@[simp] theorem State.onHall_dumps (s : State) (h : Nat) (f : Hall → Hall) : (s.onHall h f).dumps = s.dumps := rfl
@[simp] theorem State.onHall_powerCycleReq (s : State) (h : Nat) (f : Hall → Hall) : (s.onHall h f).powerCycleReq = s.powerCycleReq := rfl
@[simp] theorem State.onHall_powerCycleCopy (s : State) (h : Nat) (f : Hall → Hall) : (s.onHall h f).powerCycleCopy = s.powerCycleCopy := rfl
@[simp] theorem State.onHall_dumpCopies (s : State) (h : Nat) (f : Hall → Hall) : (s.onHall h f).dumpCopies = s.dumpCopies := rfl
@[simp] theorem State.onHall_bring (s : State) (h : Nat) (f : Hall → Hall) : (s.onHall h f).bring = s.bring := rfl
@[simp] theorem State.onHall_ports (s : State) (h : Nat) (f : Hall → Hall) : (s.onHall h f).ports = s.ports := rfl
@[simp] theorem State.onHall_sec (s : State) (h : Nat) (f : Hall → Hall) : (s.onHall h f).sec = s.sec := rfl
@[simp] theorem State.onHall_power (s : State) (h : Nat) (f : Hall → Hall) : (s.onHall h f).power = s.power := rfl
@[simp] theorem State.onHall_cables (s : State) (h : Nat) (f : Hall → Hall) : (s.onHall h f).cables = s.cables := rfl
@[simp] theorem State.onHall_reg (s : State) (h : Nat) (f : Hall → Hall) (j : Nat) : (s.onHall h f).reg j = s.reg j := rfl
@[simp] theorem State.onHall_fld (s : State) (h : Nat) (f : Hall → Hall) (j u w : Nat) : (s.onHall h f).fld j u w = s.fld j u w := rfl
@[simp] theorem State.onHall_core (s : State) (h : Nat) (f : Hall → Hall) (j : Nat) : (s.onHall h f).core j = s.core j := rfl
@[simp] theorem State.onHall_ctx (s : State) (h : Nat) (f : Hall → Hall) (j : Nat) : (s.onHall h f).ctx j = s.ctx j := rfl
@[simp] theorem State.onHall_ring (s : State) (h : Nat) (f : Hall → Hall) (j : Nat) : (s.onHall h f).ring j = s.ring j := rfl
@[simp] theorem State.onHall_byte (s : State) (h : Nat) (f : Hall → Hall) (j : Nat) : (s.onHall h f).byte j = s.byte j := rfl
@[simp] theorem State.onHall_ready (s : State) (h : Nat) (f : Hall → Hall) : (s.onHall h f).ready = s.ready := rfl
@[simp] theorem State.onHall_answers (s : State) (h : Nat) (f : Hall → Hall) : (s.onHall h f).answers = s.answers := rfl
@[simp] theorem State.onHall_timeNs (s : State) (h : Nat) (f : Hall → Hall) : (s.onHall h f).timeNs = s.timeNs := rfl

/-! ### onCtx -/

@[simp] theorem State.onCtx_pending (s : State) (c : Nat) (f : Ctx → Ctx) : (s.onCtx c f).pending = s.pending := rfl
@[simp] theorem State.onCtx_out (s : State) (c : Nat) (f : Ctx → Ctx) : (s.onCtx c f).out = s.out := rfl
@[simp] theorem State.onCtx_free (s : State) (c : Nat) (f : Ctx → Ctx) : (s.onCtx c f).free = s.free := rfl
@[simp] theorem State.onCtx_serial (s : State) (c : Nat) (f : Ctx → Ctx) : (s.onCtx c f).serial = s.serial := rfl
@[simp] theorem State.onCtx_regs (s : State) (c : Nat) (f : Ctx → Ctx) : (s.onCtx c f).regs = s.regs := rfl
@[simp] theorem State.onCtx_latchedHigh (s : State) (c : Nat) (f : Ctx → Ctx) : (s.onCtx c f).latchedHigh = s.latchedHigh := rfl
@[simp] theorem State.onCtx_heldLow (s : State) (c : Nat) (f : Ctx → Ctx) : (s.onCtx c f).heldLow = s.heldLow := rfl
@[simp] theorem State.onCtx_clk (s : State) (c : Nat) (f : Ctx → Ctx) : (s.onCtx c f).clk = s.clk := rfl
@[simp] theorem State.onCtx_fr (s : State) (c : Nat) (f : Ctx → Ctx) : (s.onCtx c f).fr = s.fr := rfl
@[simp] theorem State.onCtx_halls (s : State) (c : Nat) (f : Ctx → Ctx) : (s.onCtx c f).halls = s.halls := rfl
@[simp] theorem State.onCtx_cores (s : State) (c : Nat) (f : Ctx → Ctx) : (s.onCtx c f).cores = s.cores := rfl
@[simp] theorem State.onCtx_flight (s : State) (c : Nat) (f : Ctx → Ctx) : (s.onCtx c f).flight = s.flight := rfl
@[simp] theorem State.onCtx_mem (s : State) (c : Nat) (f : Ctx → Ctx) : (s.onCtx c f).mem = s.mem := rfl
@[simp] theorem State.onCtx_ls (s : State) (c : Nat) (f : Ctx → Ctx) : (s.onCtx c f).ls = s.ls := rfl
@[simp] theorem State.onCtx_rings (s : State) (c : Nat) (f : Ctx → Ctx) : (s.onCtx c f).rings = s.rings := rfl
@[simp] theorem State.onCtx_mboxes (s : State) (c : Nat) (f : Ctx → Ctx) : (s.onCtx c f).mboxes = s.mboxes := rfl
@[simp] theorem State.onCtx_pcie (s : State) (c : Nat) (f : Ctx → Ctx) : (s.onCtx c f).pcie = s.pcie := rfl
@[simp] theorem State.onCtx_srcWin (s : State) (c : Nat) (f : Ctx → Ctx) : (s.onCtx c f).srcWin = s.srcWin := rfl
@[simp] theorem State.onCtx_dies (s : State) (c : Nat) (f : Ctx → Ctx) : (s.onCtx c f).dies = s.dies := rfl
@[simp] theorem State.onCtx_devStep (s : State) (c : Nat) (f : Ctx → Ctx) : (s.onCtx c f).devStep = s.devStep := rfl
@[simp] theorem State.onCtx_dumps (s : State) (c : Nat) (f : Ctx → Ctx) : (s.onCtx c f).dumps = s.dumps := rfl
@[simp] theorem State.onCtx_powerCycleReq (s : State) (c : Nat) (f : Ctx → Ctx) : (s.onCtx c f).powerCycleReq = s.powerCycleReq := rfl
@[simp] theorem State.onCtx_powerCycleCopy (s : State) (c : Nat) (f : Ctx → Ctx) : (s.onCtx c f).powerCycleCopy = s.powerCycleCopy := rfl
@[simp] theorem State.onCtx_dumpCopies (s : State) (c : Nat) (f : Ctx → Ctx) : (s.onCtx c f).dumpCopies = s.dumpCopies := rfl
@[simp] theorem State.onCtx_bring (s : State) (c : Nat) (f : Ctx → Ctx) : (s.onCtx c f).bring = s.bring := rfl
@[simp] theorem State.onCtx_ports (s : State) (c : Nat) (f : Ctx → Ctx) : (s.onCtx c f).ports = s.ports := rfl
@[simp] theorem State.onCtx_sec (s : State) (c : Nat) (f : Ctx → Ctx) : (s.onCtx c f).sec = s.sec := rfl
@[simp] theorem State.onCtx_power (s : State) (c : Nat) (f : Ctx → Ctx) : (s.onCtx c f).power = s.power := rfl
@[simp] theorem State.onCtx_cables (s : State) (c : Nat) (f : Ctx → Ctx) : (s.onCtx c f).cables = s.cables := rfl
@[simp] theorem State.onCtx_reg (s : State) (c : Nat) (f : Ctx → Ctx) (j : Nat) : (s.onCtx c f).reg j = s.reg j := rfl
@[simp] theorem State.onCtx_fld (s : State) (c : Nat) (f : Ctx → Ctx) (j u w : Nat) : (s.onCtx c f).fld j u w = s.fld j u w := rfl
@[simp] theorem State.onCtx_core (s : State) (c : Nat) (f : Ctx → Ctx) (j : Nat) : (s.onCtx c f).core j = s.core j := rfl
@[simp] theorem State.onCtx_hall (s : State) (c : Nat) (f : Ctx → Ctx) (j : Nat) : (s.onCtx c f).hall j = s.hall j := rfl
@[simp] theorem State.onCtx_ring (s : State) (c : Nat) (f : Ctx → Ctx) (j : Nat) : (s.onCtx c f).ring j = s.ring j := rfl
@[simp] theorem State.onCtx_byte (s : State) (c : Nat) (f : Ctx → Ctx) (j : Nat) : (s.onCtx c f).byte j = s.byte j := rfl
@[simp] theorem State.onCtx_ready (s : State) (c : Nat) (f : Ctx → Ctx) : (s.onCtx c f).ready = s.ready := rfl
@[simp] theorem State.onCtx_answers (s : State) (c : Nat) (f : Ctx → Ctx) : (s.onCtx c f).answers = s.answers := rfl
@[simp] theorem State.onCtx_timeNs (s : State) (c : Nat) (f : Ctx → Ctx) : (s.onCtx c f).timeNs = s.timeNs := rfl
@[simp] theorem State.onCtx_inStep (s : State) (c : Nat) (f : Ctx → Ctx) (j : Nat) : (s.onCtx c f).inStep j = s.inStep j := rfl
@[simp] theorem State.onCtx_holderOf (s : State) (c : Nat) (f : Ctx → Ctx) (j : Nat) : (s.onCtx c f).holderOf j = s.holderOf j := rfl

/-! ### onRing -/

@[simp] theorem State.onRing_pending (s : State) (r : Nat) (f : Ring → Ring) : (s.onRing r f).pending = s.pending := rfl
@[simp] theorem State.onRing_out (s : State) (r : Nat) (f : Ring → Ring) : (s.onRing r f).out = s.out := rfl
@[simp] theorem State.onRing_free (s : State) (r : Nat) (f : Ring → Ring) : (s.onRing r f).free = s.free := rfl
@[simp] theorem State.onRing_serial (s : State) (r : Nat) (f : Ring → Ring) : (s.onRing r f).serial = s.serial := rfl
@[simp] theorem State.onRing_regs (s : State) (r : Nat) (f : Ring → Ring) : (s.onRing r f).regs = s.regs := rfl
@[simp] theorem State.onRing_latchedHigh (s : State) (r : Nat) (f : Ring → Ring) : (s.onRing r f).latchedHigh = s.latchedHigh := rfl
@[simp] theorem State.onRing_heldLow (s : State) (r : Nat) (f : Ring → Ring) : (s.onRing r f).heldLow = s.heldLow := rfl
@[simp] theorem State.onRing_clk (s : State) (r : Nat) (f : Ring → Ring) : (s.onRing r f).clk = s.clk := rfl
@[simp] theorem State.onRing_fr (s : State) (r : Nat) (f : Ring → Ring) : (s.onRing r f).fr = s.fr := rfl
@[simp] theorem State.onRing_halls (s : State) (r : Nat) (f : Ring → Ring) : (s.onRing r f).halls = s.halls := rfl
@[simp] theorem State.onRing_cores (s : State) (r : Nat) (f : Ring → Ring) : (s.onRing r f).cores = s.cores := rfl
@[simp] theorem State.onRing_flight (s : State) (r : Nat) (f : Ring → Ring) : (s.onRing r f).flight = s.flight := rfl
@[simp] theorem State.onRing_mem (s : State) (r : Nat) (f : Ring → Ring) : (s.onRing r f).mem = s.mem := rfl
@[simp] theorem State.onRing_ctxs (s : State) (r : Nat) (f : Ring → Ring) : (s.onRing r f).ctxs = s.ctxs := rfl
@[simp] theorem State.onRing_ls (s : State) (r : Nat) (f : Ring → Ring) : (s.onRing r f).ls = s.ls := rfl
@[simp] theorem State.onRing_mboxes (s : State) (r : Nat) (f : Ring → Ring) : (s.onRing r f).mboxes = s.mboxes := rfl
@[simp] theorem State.onRing_pcie (s : State) (r : Nat) (f : Ring → Ring) : (s.onRing r f).pcie = s.pcie := rfl
@[simp] theorem State.onRing_srcWin (s : State) (r : Nat) (f : Ring → Ring) : (s.onRing r f).srcWin = s.srcWin := rfl
@[simp] theorem State.onRing_dies (s : State) (r : Nat) (f : Ring → Ring) : (s.onRing r f).dies = s.dies := rfl
@[simp] theorem State.onRing_devStep (s : State) (r : Nat) (f : Ring → Ring) : (s.onRing r f).devStep = s.devStep := rfl
@[simp] theorem State.onRing_dumps (s : State) (r : Nat) (f : Ring → Ring) : (s.onRing r f).dumps = s.dumps := rfl
@[simp] theorem State.onRing_powerCycleReq (s : State) (r : Nat) (f : Ring → Ring) : (s.onRing r f).powerCycleReq = s.powerCycleReq := rfl
@[simp] theorem State.onRing_powerCycleCopy (s : State) (r : Nat) (f : Ring → Ring) : (s.onRing r f).powerCycleCopy = s.powerCycleCopy := rfl
@[simp] theorem State.onRing_dumpCopies (s : State) (r : Nat) (f : Ring → Ring) : (s.onRing r f).dumpCopies = s.dumpCopies := rfl
@[simp] theorem State.onRing_bring (s : State) (r : Nat) (f : Ring → Ring) : (s.onRing r f).bring = s.bring := rfl
@[simp] theorem State.onRing_ports (s : State) (r : Nat) (f : Ring → Ring) : (s.onRing r f).ports = s.ports := rfl
@[simp] theorem State.onRing_sec (s : State) (r : Nat) (f : Ring → Ring) : (s.onRing r f).sec = s.sec := rfl
@[simp] theorem State.onRing_power (s : State) (r : Nat) (f : Ring → Ring) : (s.onRing r f).power = s.power := rfl
@[simp] theorem State.onRing_cables (s : State) (r : Nat) (f : Ring → Ring) : (s.onRing r f).cables = s.cables := rfl
@[simp] theorem State.onRing_reg (s : State) (r : Nat) (f : Ring → Ring) (j : Nat) : (s.onRing r f).reg j = s.reg j := rfl
@[simp] theorem State.onRing_fld (s : State) (r : Nat) (f : Ring → Ring) (j u w : Nat) : (s.onRing r f).fld j u w = s.fld j u w := rfl
@[simp] theorem State.onRing_core (s : State) (r : Nat) (f : Ring → Ring) (j : Nat) : (s.onRing r f).core j = s.core j := rfl
@[simp] theorem State.onRing_hall (s : State) (r : Nat) (f : Ring → Ring) (j : Nat) : (s.onRing r f).hall j = s.hall j := rfl
@[simp] theorem State.onRing_ctx (s : State) (r : Nat) (f : Ring → Ring) (j : Nat) : (s.onRing r f).ctx j = s.ctx j := rfl
@[simp] theorem State.onRing_byte (s : State) (r : Nat) (f : Ring → Ring) (j : Nat) : (s.onRing r f).byte j = s.byte j := rfl
@[simp] theorem State.onRing_ready (s : State) (r : Nat) (f : Ring → Ring) : (s.onRing r f).ready = s.ready := rfl
@[simp] theorem State.onRing_answers (s : State) (r : Nat) (f : Ring → Ring) : (s.onRing r f).answers = s.answers := rfl
@[simp] theorem State.onRing_timeNs (s : State) (r : Nat) (f : Ring → Ring) : (s.onRing r f).timeNs = s.timeNs := rfl
@[simp] theorem State.onRing_inStep (s : State) (r : Nat) (f : Ring → Ring) (j : Nat) : (s.onRing r f).inStep j = s.inStep j := rfl
@[simp] theorem State.onRing_holderOf (s : State) (r : Nat) (f : Ring → Ring) (j : Nat) : (s.onRing r f).holderOf j = s.holderOf j := rfl

/-! ### emit -/

@[simp] theorem State.emit_pending (s : State) (o : Out) : (s.emit o).pending = s.pending := rfl
@[simp] theorem State.emit_free (s : State) (o : Out) : (s.emit o).free = s.free := rfl
@[simp] theorem State.emit_serial (s : State) (o : Out) : (s.emit o).serial = s.serial := rfl
@[simp] theorem State.emit_regs (s : State) (o : Out) : (s.emit o).regs = s.regs := rfl
@[simp] theorem State.emit_latchedHigh (s : State) (o : Out) : (s.emit o).latchedHigh = s.latchedHigh := rfl
@[simp] theorem State.emit_heldLow (s : State) (o : Out) : (s.emit o).heldLow = s.heldLow := rfl
@[simp] theorem State.emit_clk (s : State) (o : Out) : (s.emit o).clk = s.clk := rfl
@[simp] theorem State.emit_fr (s : State) (o : Out) : (s.emit o).fr = s.fr := rfl
@[simp] theorem State.emit_halls (s : State) (o : Out) : (s.emit o).halls = s.halls := rfl
@[simp] theorem State.emit_cores (s : State) (o : Out) : (s.emit o).cores = s.cores := rfl
@[simp] theorem State.emit_flight (s : State) (o : Out) : (s.emit o).flight = s.flight := rfl
@[simp] theorem State.emit_mem (s : State) (o : Out) : (s.emit o).mem = s.mem := rfl
@[simp] theorem State.emit_ctxs (s : State) (o : Out) : (s.emit o).ctxs = s.ctxs := rfl
@[simp] theorem State.emit_ls (s : State) (o : Out) : (s.emit o).ls = s.ls := rfl
@[simp] theorem State.emit_rings (s : State) (o : Out) : (s.emit o).rings = s.rings := rfl
@[simp] theorem State.emit_mboxes (s : State) (o : Out) : (s.emit o).mboxes = s.mboxes := rfl
@[simp] theorem State.emit_pcie (s : State) (o : Out) : (s.emit o).pcie = s.pcie := rfl
@[simp] theorem State.emit_srcWin (s : State) (o : Out) : (s.emit o).srcWin = s.srcWin := rfl
@[simp] theorem State.emit_dies (s : State) (o : Out) : (s.emit o).dies = s.dies := rfl
@[simp] theorem State.emit_devStep (s : State) (o : Out) : (s.emit o).devStep = s.devStep := rfl
@[simp] theorem State.emit_dumps (s : State) (o : Out) : (s.emit o).dumps = s.dumps := rfl
@[simp] theorem State.emit_powerCycleReq (s : State) (o : Out) : (s.emit o).powerCycleReq = s.powerCycleReq := rfl
@[simp] theorem State.emit_powerCycleCopy (s : State) (o : Out) : (s.emit o).powerCycleCopy = s.powerCycleCopy := rfl
@[simp] theorem State.emit_dumpCopies (s : State) (o : Out) : (s.emit o).dumpCopies = s.dumpCopies := rfl
@[simp] theorem State.emit_bring (s : State) (o : Out) : (s.emit o).bring = s.bring := rfl
@[simp] theorem State.emit_ports (s : State) (o : Out) : (s.emit o).ports = s.ports := rfl
@[simp] theorem State.emit_sec (s : State) (o : Out) : (s.emit o).sec = s.sec := rfl
@[simp] theorem State.emit_power (s : State) (o : Out) : (s.emit o).power = s.power := rfl
@[simp] theorem State.emit_cables (s : State) (o : Out) : (s.emit o).cables = s.cables := rfl
@[simp] theorem State.emit_reg (s : State) (o : Out) (j : Nat) : (s.emit o).reg j = s.reg j := rfl
@[simp] theorem State.emit_fld (s : State) (o : Out) (j u w : Nat) : (s.emit o).fld j u w = s.fld j u w := rfl
@[simp] theorem State.emit_core (s : State) (o : Out) (j : Nat) : (s.emit o).core j = s.core j := rfl
@[simp] theorem State.emit_hall (s : State) (o : Out) (j : Nat) : (s.emit o).hall j = s.hall j := rfl
@[simp] theorem State.emit_ctx (s : State) (o : Out) (j : Nat) : (s.emit o).ctx j = s.ctx j := rfl
@[simp] theorem State.emit_ring (s : State) (o : Out) (j : Nat) : (s.emit o).ring j = s.ring j := rfl
@[simp] theorem State.emit_byte (s : State) (o : Out) (j : Nat) : (s.emit o).byte j = s.byte j := rfl
@[simp] theorem State.emit_ready (s : State) (o : Out) : (s.emit o).ready = s.ready := rfl
@[simp] theorem State.emit_answers (s : State) (o : Out) : (s.emit o).answers = s.answers := rfl
@[simp] theorem State.emit_timeNs (s : State) (o : Out) : (s.emit o).timeNs = s.timeNs := rfl
@[simp] theorem State.emit_inStep (s : State) (o : Out) (j : Nat) : (s.emit o).inStep j = s.inStep j := rfl
@[simp] theorem State.emit_holderOf (s : State) (o : Out) (j : Nat) : (s.emit o).holderOf j = s.holderOf j := rfl

/-! ### drawn -/

@[simp] theorem State.drawn_pending (s : State) : s.drawn.pending = s.pending := rfl
@[simp] theorem State.drawn_out (s : State) : s.drawn.out = s.out := rfl
@[simp] theorem State.drawn_serial (s : State) : s.drawn.serial = s.serial := rfl
@[simp] theorem State.drawn_regs (s : State) : s.drawn.regs = s.regs := rfl
@[simp] theorem State.drawn_latchedHigh (s : State) : s.drawn.latchedHigh = s.latchedHigh := rfl
@[simp] theorem State.drawn_heldLow (s : State) : s.drawn.heldLow = s.heldLow := rfl
@[simp] theorem State.drawn_clk (s : State) : s.drawn.clk = s.clk := rfl
@[simp] theorem State.drawn_fr (s : State) : s.drawn.fr = s.fr := rfl
@[simp] theorem State.drawn_halls (s : State) : s.drawn.halls = s.halls := rfl
@[simp] theorem State.drawn_cores (s : State) : s.drawn.cores = s.cores := rfl
@[simp] theorem State.drawn_flight (s : State) : s.drawn.flight = s.flight := rfl
@[simp] theorem State.drawn_mem (s : State) : s.drawn.mem = s.mem := rfl
@[simp] theorem State.drawn_ctxs (s : State) : s.drawn.ctxs = s.ctxs := rfl
@[simp] theorem State.drawn_ls (s : State) : s.drawn.ls = s.ls := rfl
@[simp] theorem State.drawn_rings (s : State) : s.drawn.rings = s.rings := rfl
@[simp] theorem State.drawn_mboxes (s : State) : s.drawn.mboxes = s.mboxes := rfl
@[simp] theorem State.drawn_pcie (s : State) : s.drawn.pcie = s.pcie := rfl
@[simp] theorem State.drawn_srcWin (s : State) : s.drawn.srcWin = s.srcWin := rfl
@[simp] theorem State.drawn_dies (s : State) : s.drawn.dies = s.dies := rfl
@[simp] theorem State.drawn_devStep (s : State) : s.drawn.devStep = s.devStep := rfl
@[simp] theorem State.drawn_dumps (s : State) : s.drawn.dumps = s.dumps := rfl
@[simp] theorem State.drawn_powerCycleReq (s : State) : s.drawn.powerCycleReq = s.powerCycleReq := rfl
@[simp] theorem State.drawn_powerCycleCopy (s : State) : s.drawn.powerCycleCopy = s.powerCycleCopy := rfl
@[simp] theorem State.drawn_dumpCopies (s : State) : s.drawn.dumpCopies = s.dumpCopies := rfl
@[simp] theorem State.drawn_bring (s : State) : s.drawn.bring = s.bring := rfl
@[simp] theorem State.drawn_ports (s : State) : s.drawn.ports = s.ports := rfl
@[simp] theorem State.drawn_sec (s : State) : s.drawn.sec = s.sec := rfl
@[simp] theorem State.drawn_power (s : State) : s.drawn.power = s.power := rfl
@[simp] theorem State.drawn_cables (s : State) : s.drawn.cables = s.cables := rfl
@[simp] theorem State.drawn_reg (s : State) (j : Nat) : s.drawn.reg j = s.reg j := rfl
@[simp] theorem State.drawn_fld (s : State) (j u w : Nat) : s.drawn.fld j u w = s.fld j u w := rfl
@[simp] theorem State.drawn_core (s : State) (j : Nat) : s.drawn.core j = s.core j := rfl
@[simp] theorem State.drawn_hall (s : State) (j : Nat) : s.drawn.hall j = s.hall j := rfl
@[simp] theorem State.drawn_ctx (s : State) (j : Nat) : s.drawn.ctx j = s.ctx j := rfl
@[simp] theorem State.drawn_ring (s : State) (j : Nat) : s.drawn.ring j = s.ring j := rfl
@[simp] theorem State.drawn_byte (s : State) (j : Nat) : s.drawn.byte j = s.byte j := rfl
@[simp] theorem State.drawn_ready (s : State) : s.drawn.ready = s.ready := rfl
@[simp] theorem State.drawn_answers (s : State) : s.drawn.answers = s.answers := rfl
@[simp] theorem State.drawn_timeNs (s : State) : s.drawn.timeNs = s.timeNs := rfl
@[simp] theorem State.drawn_inStep (s : State) (j : Nat) : s.drawn.inStep j = s.inStep j := rfl
@[simp] theorem State.drawn_holderOf (s : State) (j : Nat) : s.drawn.holderOf j = s.holderOf j := rfl

/-! ### forget -/

@[simp] theorem State.forget_pending (s : State) (lo hi : Nat) : (s.forget lo hi).pending = s.pending := rfl
@[simp] theorem State.forget_out (s : State) (lo hi : Nat) : (s.forget lo hi).out = s.out := rfl
@[simp] theorem State.forget_serial (s : State) (lo hi : Nat) : (s.forget lo hi).serial = s.serial := rfl
@[simp] theorem State.forget_regs (s : State) (lo hi : Nat) : (s.forget lo hi).regs = s.regs := rfl
@[simp] theorem State.forget_latchedHigh (s : State) (lo hi : Nat) : (s.forget lo hi).latchedHigh = s.latchedHigh := rfl
@[simp] theorem State.forget_heldLow (s : State) (lo hi : Nat) : (s.forget lo hi).heldLow = s.heldLow := rfl
@[simp] theorem State.forget_clk (s : State) (lo hi : Nat) : (s.forget lo hi).clk = s.clk := rfl
@[simp] theorem State.forget_fr (s : State) (lo hi : Nat) : (s.forget lo hi).fr = s.fr := rfl
@[simp] theorem State.forget_halls (s : State) (lo hi : Nat) : (s.forget lo hi).halls = s.halls := rfl
@[simp] theorem State.forget_cores (s : State) (lo hi : Nat) : (s.forget lo hi).cores = s.cores := rfl
@[simp] theorem State.forget_flight (s : State) (lo hi : Nat) : (s.forget lo hi).flight = s.flight := rfl
@[simp] theorem State.forget_ctxs (s : State) (lo hi : Nat) : (s.forget lo hi).ctxs = s.ctxs := rfl
@[simp] theorem State.forget_ls (s : State) (lo hi : Nat) : (s.forget lo hi).ls = s.ls := rfl
@[simp] theorem State.forget_rings (s : State) (lo hi : Nat) : (s.forget lo hi).rings = s.rings := rfl
@[simp] theorem State.forget_mboxes (s : State) (lo hi : Nat) : (s.forget lo hi).mboxes = s.mboxes := rfl
@[simp] theorem State.forget_pcie (s : State) (lo hi : Nat) : (s.forget lo hi).pcie = s.pcie := rfl
@[simp] theorem State.forget_srcWin (s : State) (lo hi : Nat) : (s.forget lo hi).srcWin = s.srcWin := rfl
@[simp] theorem State.forget_dies (s : State) (lo hi : Nat) : (s.forget lo hi).dies = s.dies := rfl
@[simp] theorem State.forget_devStep (s : State) (lo hi : Nat) : (s.forget lo hi).devStep = s.devStep := rfl
@[simp] theorem State.forget_dumps (s : State) (lo hi : Nat) : (s.forget lo hi).dumps = s.dumps := rfl
@[simp] theorem State.forget_powerCycleReq (s : State) (lo hi : Nat) : (s.forget lo hi).powerCycleReq = s.powerCycleReq := rfl
@[simp] theorem State.forget_powerCycleCopy (s : State) (lo hi : Nat) : (s.forget lo hi).powerCycleCopy = s.powerCycleCopy := rfl
@[simp] theorem State.forget_dumpCopies (s : State) (lo hi : Nat) : (s.forget lo hi).dumpCopies = s.dumpCopies := rfl
@[simp] theorem State.forget_bring (s : State) (lo hi : Nat) : (s.forget lo hi).bring = s.bring := rfl
@[simp] theorem State.forget_ports (s : State) (lo hi : Nat) : (s.forget lo hi).ports = s.ports := rfl
@[simp] theorem State.forget_sec (s : State) (lo hi : Nat) : (s.forget lo hi).sec = s.sec := rfl
@[simp] theorem State.forget_power (s : State) (lo hi : Nat) : (s.forget lo hi).power = s.power := rfl
@[simp] theorem State.forget_cables (s : State) (lo hi : Nat) : (s.forget lo hi).cables = s.cables := rfl
@[simp] theorem State.forget_reg (s : State) (lo hi : Nat) (j : Nat) : (s.forget lo hi).reg j = s.reg j := rfl
@[simp] theorem State.forget_fld (s : State) (lo hi : Nat) (j u w : Nat) : (s.forget lo hi).fld j u w = s.fld j u w := rfl
@[simp] theorem State.forget_core (s : State) (lo hi : Nat) (j : Nat) : (s.forget lo hi).core j = s.core j := rfl
@[simp] theorem State.forget_hall (s : State) (lo hi : Nat) (j : Nat) : (s.forget lo hi).hall j = s.hall j := rfl
@[simp] theorem State.forget_ctx (s : State) (lo hi : Nat) (j : Nat) : (s.forget lo hi).ctx j = s.ctx j := rfl
@[simp] theorem State.forget_ring (s : State) (lo hi : Nat) (j : Nat) : (s.forget lo hi).ring j = s.ring j := rfl
@[simp] theorem State.forget_ready (s : State) (lo hi : Nat) : (s.forget lo hi).ready = s.ready := rfl
@[simp] theorem State.forget_answers (s : State) (lo hi : Nat) : (s.forget lo hi).answers = s.answers := rfl
@[simp] theorem State.forget_timeNs (s : State) (lo hi : Nat) : (s.forget lo hi).timeNs = s.timeNs := rfl
@[simp] theorem State.forget_inStep (s : State) (lo hi : Nat) (j : Nat) : (s.forget lo hi).inStep j = s.inStep j := rfl
@[simp] theorem State.forget_holderOf (s : State) (lo hi : Nat) (j : Nat) : (s.forget lo hi).holderOf j = s.holderOf j := rfl

/-! ### writeBytes -/

@[simp] theorem State.writeBytes_pending (s : State) (k : Nat) (bs : List Byte) : (s.writeBytes k bs).pending = s.pending := rfl
@[simp] theorem State.writeBytes_out (s : State) (k : Nat) (bs : List Byte) : (s.writeBytes k bs).out = s.out := rfl
@[simp] theorem State.writeBytes_free (s : State) (k : Nat) (bs : List Byte) : (s.writeBytes k bs).free = s.free := rfl
@[simp] theorem State.writeBytes_serial (s : State) (k : Nat) (bs : List Byte) : (s.writeBytes k bs).serial = s.serial := rfl
@[simp] theorem State.writeBytes_regs (s : State) (k : Nat) (bs : List Byte) : (s.writeBytes k bs).regs = s.regs := rfl
@[simp] theorem State.writeBytes_latchedHigh (s : State) (k : Nat) (bs : List Byte) : (s.writeBytes k bs).latchedHigh = s.latchedHigh := rfl
@[simp] theorem State.writeBytes_heldLow (s : State) (k : Nat) (bs : List Byte) : (s.writeBytes k bs).heldLow = s.heldLow := rfl
@[simp] theorem State.writeBytes_clk (s : State) (k : Nat) (bs : List Byte) : (s.writeBytes k bs).clk = s.clk := rfl
@[simp] theorem State.writeBytes_fr (s : State) (k : Nat) (bs : List Byte) : (s.writeBytes k bs).fr = s.fr := rfl
@[simp] theorem State.writeBytes_halls (s : State) (k : Nat) (bs : List Byte) : (s.writeBytes k bs).halls = s.halls := rfl
@[simp] theorem State.writeBytes_cores (s : State) (k : Nat) (bs : List Byte) : (s.writeBytes k bs).cores = s.cores := rfl
@[simp] theorem State.writeBytes_flight (s : State) (k : Nat) (bs : List Byte) : (s.writeBytes k bs).flight = s.flight := rfl
@[simp] theorem State.writeBytes_ctxs (s : State) (k : Nat) (bs : List Byte) : (s.writeBytes k bs).ctxs = s.ctxs := rfl
@[simp] theorem State.writeBytes_ls (s : State) (k : Nat) (bs : List Byte) : (s.writeBytes k bs).ls = s.ls := rfl
@[simp] theorem State.writeBytes_rings (s : State) (k : Nat) (bs : List Byte) : (s.writeBytes k bs).rings = s.rings := rfl
@[simp] theorem State.writeBytes_mboxes (s : State) (k : Nat) (bs : List Byte) : (s.writeBytes k bs).mboxes = s.mboxes := rfl
@[simp] theorem State.writeBytes_pcie (s : State) (k : Nat) (bs : List Byte) : (s.writeBytes k bs).pcie = s.pcie := rfl
@[simp] theorem State.writeBytes_srcWin (s : State) (k : Nat) (bs : List Byte) : (s.writeBytes k bs).srcWin = s.srcWin := rfl
@[simp] theorem State.writeBytes_dies (s : State) (k : Nat) (bs : List Byte) : (s.writeBytes k bs).dies = s.dies := rfl
@[simp] theorem State.writeBytes_devStep (s : State) (k : Nat) (bs : List Byte) : (s.writeBytes k bs).devStep = s.devStep := rfl
@[simp] theorem State.writeBytes_dumps (s : State) (k : Nat) (bs : List Byte) : (s.writeBytes k bs).dumps = s.dumps := rfl
@[simp] theorem State.writeBytes_powerCycleReq (s : State) (k : Nat) (bs : List Byte) : (s.writeBytes k bs).powerCycleReq = s.powerCycleReq := rfl
@[simp] theorem State.writeBytes_powerCycleCopy (s : State) (k : Nat) (bs : List Byte) : (s.writeBytes k bs).powerCycleCopy = s.powerCycleCopy := rfl
@[simp] theorem State.writeBytes_dumpCopies (s : State) (k : Nat) (bs : List Byte) : (s.writeBytes k bs).dumpCopies = s.dumpCopies := rfl
@[simp] theorem State.writeBytes_bring (s : State) (k : Nat) (bs : List Byte) : (s.writeBytes k bs).bring = s.bring := rfl
@[simp] theorem State.writeBytes_ports (s : State) (k : Nat) (bs : List Byte) : (s.writeBytes k bs).ports = s.ports := rfl
@[simp] theorem State.writeBytes_sec (s : State) (k : Nat) (bs : List Byte) : (s.writeBytes k bs).sec = s.sec := rfl
@[simp] theorem State.writeBytes_power (s : State) (k : Nat) (bs : List Byte) : (s.writeBytes k bs).power = s.power := rfl
@[simp] theorem State.writeBytes_cables (s : State) (k : Nat) (bs : List Byte) : (s.writeBytes k bs).cables = s.cables := rfl
@[simp] theorem State.writeBytes_reg (s : State) (k : Nat) (bs : List Byte) (j : Nat) : (s.writeBytes k bs).reg j = s.reg j := rfl
@[simp] theorem State.writeBytes_fld (s : State) (k : Nat) (bs : List Byte) (j u w : Nat) : (s.writeBytes k bs).fld j u w = s.fld j u w := rfl
@[simp] theorem State.writeBytes_core (s : State) (k : Nat) (bs : List Byte) (j : Nat) : (s.writeBytes k bs).core j = s.core j := rfl
@[simp] theorem State.writeBytes_hall (s : State) (k : Nat) (bs : List Byte) (j : Nat) : (s.writeBytes k bs).hall j = s.hall j := rfl
@[simp] theorem State.writeBytes_ctx (s : State) (k : Nat) (bs : List Byte) (j : Nat) : (s.writeBytes k bs).ctx j = s.ctx j := rfl
@[simp] theorem State.writeBytes_ring (s : State) (k : Nat) (bs : List Byte) (j : Nat) : (s.writeBytes k bs).ring j = s.ring j := rfl
@[simp] theorem State.writeBytes_ready (s : State) (k : Nat) (bs : List Byte) : (s.writeBytes k bs).ready = s.ready := rfl
@[simp] theorem State.writeBytes_answers (s : State) (k : Nat) (bs : List Byte) : (s.writeBytes k bs).answers = s.answers := rfl
@[simp] theorem State.writeBytes_timeNs (s : State) (k : Nat) (bs : List Byte) : (s.writeBytes k bs).timeNs = s.timeNs := rfl
@[simp] theorem State.writeBytes_inStep (s : State) (k : Nat) (bs : List Byte) (j : Nat) : (s.writeBytes k bs).inStep j = s.inStep j := rfl
@[simp] theorem State.writeBytes_holderOf (s : State) (k : Nat) (bs : List Byte) (j : Nat) : (s.writeBytes k bs).holderOf j = s.holderOf j := rfl

/-! ### writeNat -/

@[simp] theorem State.writeNat_pending (s : State) (k n v : Nat) : (s.writeNat k n v).pending = s.pending := rfl
@[simp] theorem State.writeNat_out (s : State) (k n v : Nat) : (s.writeNat k n v).out = s.out := rfl
@[simp] theorem State.writeNat_free (s : State) (k n v : Nat) : (s.writeNat k n v).free = s.free := rfl
@[simp] theorem State.writeNat_serial (s : State) (k n v : Nat) : (s.writeNat k n v).serial = s.serial := rfl
@[simp] theorem State.writeNat_regs (s : State) (k n v : Nat) : (s.writeNat k n v).regs = s.regs := rfl
@[simp] theorem State.writeNat_latchedHigh (s : State) (k n v : Nat) : (s.writeNat k n v).latchedHigh = s.latchedHigh := rfl
@[simp] theorem State.writeNat_heldLow (s : State) (k n v : Nat) : (s.writeNat k n v).heldLow = s.heldLow := rfl
@[simp] theorem State.writeNat_clk (s : State) (k n v : Nat) : (s.writeNat k n v).clk = s.clk := rfl
@[simp] theorem State.writeNat_fr (s : State) (k n v : Nat) : (s.writeNat k n v).fr = s.fr := rfl
@[simp] theorem State.writeNat_halls (s : State) (k n v : Nat) : (s.writeNat k n v).halls = s.halls := rfl
@[simp] theorem State.writeNat_cores (s : State) (k n v : Nat) : (s.writeNat k n v).cores = s.cores := rfl
@[simp] theorem State.writeNat_flight (s : State) (k n v : Nat) : (s.writeNat k n v).flight = s.flight := rfl
@[simp] theorem State.writeNat_ctxs (s : State) (k n v : Nat) : (s.writeNat k n v).ctxs = s.ctxs := rfl
@[simp] theorem State.writeNat_ls (s : State) (k n v : Nat) : (s.writeNat k n v).ls = s.ls := rfl
@[simp] theorem State.writeNat_rings (s : State) (k n v : Nat) : (s.writeNat k n v).rings = s.rings := rfl
@[simp] theorem State.writeNat_mboxes (s : State) (k n v : Nat) : (s.writeNat k n v).mboxes = s.mboxes := rfl
@[simp] theorem State.writeNat_pcie (s : State) (k n v : Nat) : (s.writeNat k n v).pcie = s.pcie := rfl
@[simp] theorem State.writeNat_srcWin (s : State) (k n v : Nat) : (s.writeNat k n v).srcWin = s.srcWin := rfl
@[simp] theorem State.writeNat_dies (s : State) (k n v : Nat) : (s.writeNat k n v).dies = s.dies := rfl
@[simp] theorem State.writeNat_devStep (s : State) (k n v : Nat) : (s.writeNat k n v).devStep = s.devStep := rfl
@[simp] theorem State.writeNat_dumps (s : State) (k n v : Nat) : (s.writeNat k n v).dumps = s.dumps := rfl
@[simp] theorem State.writeNat_powerCycleReq (s : State) (k n v : Nat) : (s.writeNat k n v).powerCycleReq = s.powerCycleReq := rfl
@[simp] theorem State.writeNat_powerCycleCopy (s : State) (k n v : Nat) : (s.writeNat k n v).powerCycleCopy = s.powerCycleCopy := rfl
@[simp] theorem State.writeNat_dumpCopies (s : State) (k n v : Nat) : (s.writeNat k n v).dumpCopies = s.dumpCopies := rfl
@[simp] theorem State.writeNat_bring (s : State) (k n v : Nat) : (s.writeNat k n v).bring = s.bring := rfl
@[simp] theorem State.writeNat_ports (s : State) (k n v : Nat) : (s.writeNat k n v).ports = s.ports := rfl
@[simp] theorem State.writeNat_sec (s : State) (k n v : Nat) : (s.writeNat k n v).sec = s.sec := rfl
@[simp] theorem State.writeNat_power (s : State) (k n v : Nat) : (s.writeNat k n v).power = s.power := rfl
@[simp] theorem State.writeNat_cables (s : State) (k n v : Nat) : (s.writeNat k n v).cables = s.cables := rfl
@[simp] theorem State.writeNat_reg (s : State) (k n v : Nat) (j : Nat) : (s.writeNat k n v).reg j = s.reg j := rfl
@[simp] theorem State.writeNat_fld (s : State) (k n v : Nat) (j u w : Nat) : (s.writeNat k n v).fld j u w = s.fld j u w := rfl
@[simp] theorem State.writeNat_core (s : State) (k n v : Nat) (j : Nat) : (s.writeNat k n v).core j = s.core j := rfl
@[simp] theorem State.writeNat_hall (s : State) (k n v : Nat) (j : Nat) : (s.writeNat k n v).hall j = s.hall j := rfl
@[simp] theorem State.writeNat_ctx (s : State) (k n v : Nat) (j : Nat) : (s.writeNat k n v).ctx j = s.ctx j := rfl
@[simp] theorem State.writeNat_ring (s : State) (k n v : Nat) (j : Nat) : (s.writeNat k n v).ring j = s.ring j := rfl
@[simp] theorem State.writeNat_ready (s : State) (k n v : Nat) : (s.writeNat k n v).ready = s.ready := rfl
@[simp] theorem State.writeNat_answers (s : State) (k n v : Nat) : (s.writeNat k n v).answers = s.answers := rfl
@[simp] theorem State.writeNat_timeNs (s : State) (k n v : Nat) : (s.writeNat k n v).timeNs = s.timeNs := rfl
@[simp] theorem State.writeNat_inStep (s : State) (k n v : Nat) (j : Nat) : (s.writeNat k n v).inStep j = s.inStep j := rfl
@[simp] theorem State.writeNat_holderOf (s : State) (k n v : Nat) (j : Nat) : (s.writeNat k n v).holderOf j = s.holderOf j := rfl

/-! ### writeList -/

@[simp] theorem State.writeList_pending (s : State) (l : List (Nat × Byte)) : (s.writeList l).pending = s.pending := rfl
@[simp] theorem State.writeList_out (s : State) (l : List (Nat × Byte)) : (s.writeList l).out = s.out := rfl
@[simp] theorem State.writeList_free (s : State) (l : List (Nat × Byte)) : (s.writeList l).free = s.free := rfl
@[simp] theorem State.writeList_serial (s : State) (l : List (Nat × Byte)) : (s.writeList l).serial = s.serial := rfl
@[simp] theorem State.writeList_regs (s : State) (l : List (Nat × Byte)) : (s.writeList l).regs = s.regs := rfl
@[simp] theorem State.writeList_latchedHigh (s : State) (l : List (Nat × Byte)) : (s.writeList l).latchedHigh = s.latchedHigh := rfl
@[simp] theorem State.writeList_heldLow (s : State) (l : List (Nat × Byte)) : (s.writeList l).heldLow = s.heldLow := rfl
@[simp] theorem State.writeList_clk (s : State) (l : List (Nat × Byte)) : (s.writeList l).clk = s.clk := rfl
@[simp] theorem State.writeList_fr (s : State) (l : List (Nat × Byte)) : (s.writeList l).fr = s.fr := rfl
@[simp] theorem State.writeList_halls (s : State) (l : List (Nat × Byte)) : (s.writeList l).halls = s.halls := rfl
@[simp] theorem State.writeList_cores (s : State) (l : List (Nat × Byte)) : (s.writeList l).cores = s.cores := rfl
@[simp] theorem State.writeList_flight (s : State) (l : List (Nat × Byte)) : (s.writeList l).flight = s.flight := rfl
@[simp] theorem State.writeList_ctxs (s : State) (l : List (Nat × Byte)) : (s.writeList l).ctxs = s.ctxs := rfl
@[simp] theorem State.writeList_ls (s : State) (l : List (Nat × Byte)) : (s.writeList l).ls = s.ls := rfl
@[simp] theorem State.writeList_rings (s : State) (l : List (Nat × Byte)) : (s.writeList l).rings = s.rings := rfl
@[simp] theorem State.writeList_mboxes (s : State) (l : List (Nat × Byte)) : (s.writeList l).mboxes = s.mboxes := rfl
@[simp] theorem State.writeList_pcie (s : State) (l : List (Nat × Byte)) : (s.writeList l).pcie = s.pcie := rfl
@[simp] theorem State.writeList_srcWin (s : State) (l : List (Nat × Byte)) : (s.writeList l).srcWin = s.srcWin := rfl
@[simp] theorem State.writeList_dies (s : State) (l : List (Nat × Byte)) : (s.writeList l).dies = s.dies := rfl
@[simp] theorem State.writeList_devStep (s : State) (l : List (Nat × Byte)) : (s.writeList l).devStep = s.devStep := rfl
@[simp] theorem State.writeList_dumps (s : State) (l : List (Nat × Byte)) : (s.writeList l).dumps = s.dumps := rfl
@[simp] theorem State.writeList_powerCycleReq (s : State) (l : List (Nat × Byte)) : (s.writeList l).powerCycleReq = s.powerCycleReq := rfl
@[simp] theorem State.writeList_powerCycleCopy (s : State) (l : List (Nat × Byte)) : (s.writeList l).powerCycleCopy = s.powerCycleCopy := rfl
@[simp] theorem State.writeList_dumpCopies (s : State) (l : List (Nat × Byte)) : (s.writeList l).dumpCopies = s.dumpCopies := rfl
@[simp] theorem State.writeList_bring (s : State) (l : List (Nat × Byte)) : (s.writeList l).bring = s.bring := rfl
@[simp] theorem State.writeList_ports (s : State) (l : List (Nat × Byte)) : (s.writeList l).ports = s.ports := rfl
@[simp] theorem State.writeList_sec (s : State) (l : List (Nat × Byte)) : (s.writeList l).sec = s.sec := rfl
@[simp] theorem State.writeList_power (s : State) (l : List (Nat × Byte)) : (s.writeList l).power = s.power := rfl
@[simp] theorem State.writeList_cables (s : State) (l : List (Nat × Byte)) : (s.writeList l).cables = s.cables := rfl
@[simp] theorem State.writeList_reg (s : State) (l : List (Nat × Byte)) (j : Nat) : (s.writeList l).reg j = s.reg j := rfl
@[simp] theorem State.writeList_fld (s : State) (l : List (Nat × Byte)) (j u w : Nat) : (s.writeList l).fld j u w = s.fld j u w := rfl
@[simp] theorem State.writeList_core (s : State) (l : List (Nat × Byte)) (j : Nat) : (s.writeList l).core j = s.core j := rfl
@[simp] theorem State.writeList_hall (s : State) (l : List (Nat × Byte)) (j : Nat) : (s.writeList l).hall j = s.hall j := rfl
@[simp] theorem State.writeList_ctx (s : State) (l : List (Nat × Byte)) (j : Nat) : (s.writeList l).ctx j = s.ctx j := rfl
@[simp] theorem State.writeList_ring (s : State) (l : List (Nat × Byte)) (j : Nat) : (s.writeList l).ring j = s.ring j := rfl
@[simp] theorem State.writeList_ready (s : State) (l : List (Nat × Byte)) : (s.writeList l).ready = s.ready := rfl
@[simp] theorem State.writeList_answers (s : State) (l : List (Nat × Byte)) : (s.writeList l).answers = s.answers := rfl
@[simp] theorem State.writeList_timeNs (s : State) (l : List (Nat × Byte)) : (s.writeList l).timeNs = s.timeNs := rfl
@[simp] theorem State.writeList_inStep (s : State) (l : List (Nat × Byte)) (j : Nat) : (s.writeList l).inStep j = s.inStep j := rfl
@[simp] theorem State.writeList_holderOf (s : State) (l : List (Nat × Byte)) (j : Nat) : (s.writeList l).holderOf j = s.holderOf j := rfl

/-! ### zeroRange -/

@[simp] theorem State.zeroRange_pending (s : State) (lo hi : Nat) : (s.zeroRange lo hi).pending = s.pending := rfl
@[simp] theorem State.zeroRange_out (s : State) (lo hi : Nat) : (s.zeroRange lo hi).out = s.out := rfl
@[simp] theorem State.zeroRange_free (s : State) (lo hi : Nat) : (s.zeroRange lo hi).free = s.free := rfl
@[simp] theorem State.zeroRange_serial (s : State) (lo hi : Nat) : (s.zeroRange lo hi).serial = s.serial := rfl
@[simp] theorem State.zeroRange_regs (s : State) (lo hi : Nat) : (s.zeroRange lo hi).regs = s.regs := rfl
@[simp] theorem State.zeroRange_latchedHigh (s : State) (lo hi : Nat) : (s.zeroRange lo hi).latchedHigh = s.latchedHigh := rfl
@[simp] theorem State.zeroRange_heldLow (s : State) (lo hi : Nat) : (s.zeroRange lo hi).heldLow = s.heldLow := rfl
@[simp] theorem State.zeroRange_clk (s : State) (lo hi : Nat) : (s.zeroRange lo hi).clk = s.clk := rfl
@[simp] theorem State.zeroRange_fr (s : State) (lo hi : Nat) : (s.zeroRange lo hi).fr = s.fr := rfl
@[simp] theorem State.zeroRange_halls (s : State) (lo hi : Nat) : (s.zeroRange lo hi).halls = s.halls := rfl
@[simp] theorem State.zeroRange_cores (s : State) (lo hi : Nat) : (s.zeroRange lo hi).cores = s.cores := rfl
@[simp] theorem State.zeroRange_flight (s : State) (lo hi : Nat) : (s.zeroRange lo hi).flight = s.flight := rfl
@[simp] theorem State.zeroRange_ctxs (s : State) (lo hi : Nat) : (s.zeroRange lo hi).ctxs = s.ctxs := rfl
@[simp] theorem State.zeroRange_ls (s : State) (lo hi : Nat) : (s.zeroRange lo hi).ls = s.ls := rfl
@[simp] theorem State.zeroRange_rings (s : State) (lo hi : Nat) : (s.zeroRange lo hi).rings = s.rings := rfl
@[simp] theorem State.zeroRange_mboxes (s : State) (lo hi : Nat) : (s.zeroRange lo hi).mboxes = s.mboxes := rfl
@[simp] theorem State.zeroRange_pcie (s : State) (lo hi : Nat) : (s.zeroRange lo hi).pcie = s.pcie := rfl
@[simp] theorem State.zeroRange_srcWin (s : State) (lo hi : Nat) : (s.zeroRange lo hi).srcWin = s.srcWin := rfl
@[simp] theorem State.zeroRange_dies (s : State) (lo hi : Nat) : (s.zeroRange lo hi).dies = s.dies := rfl
@[simp] theorem State.zeroRange_devStep (s : State) (lo hi : Nat) : (s.zeroRange lo hi).devStep = s.devStep := rfl
@[simp] theorem State.zeroRange_dumps (s : State) (lo hi : Nat) : (s.zeroRange lo hi).dumps = s.dumps := rfl
@[simp] theorem State.zeroRange_powerCycleReq (s : State) (lo hi : Nat) : (s.zeroRange lo hi).powerCycleReq = s.powerCycleReq := rfl
@[simp] theorem State.zeroRange_powerCycleCopy (s : State) (lo hi : Nat) : (s.zeroRange lo hi).powerCycleCopy = s.powerCycleCopy := rfl
@[simp] theorem State.zeroRange_dumpCopies (s : State) (lo hi : Nat) : (s.zeroRange lo hi).dumpCopies = s.dumpCopies := rfl
@[simp] theorem State.zeroRange_bring (s : State) (lo hi : Nat) : (s.zeroRange lo hi).bring = s.bring := rfl
@[simp] theorem State.zeroRange_ports (s : State) (lo hi : Nat) : (s.zeroRange lo hi).ports = s.ports := rfl
@[simp] theorem State.zeroRange_sec (s : State) (lo hi : Nat) : (s.zeroRange lo hi).sec = s.sec := rfl
@[simp] theorem State.zeroRange_power (s : State) (lo hi : Nat) : (s.zeroRange lo hi).power = s.power := rfl
@[simp] theorem State.zeroRange_cables (s : State) (lo hi : Nat) : (s.zeroRange lo hi).cables = s.cables := rfl
@[simp] theorem State.zeroRange_reg (s : State) (lo hi : Nat) (j : Nat) : (s.zeroRange lo hi).reg j = s.reg j := rfl
@[simp] theorem State.zeroRange_fld (s : State) (lo hi : Nat) (j u w : Nat) : (s.zeroRange lo hi).fld j u w = s.fld j u w := rfl
@[simp] theorem State.zeroRange_core (s : State) (lo hi : Nat) (j : Nat) : (s.zeroRange lo hi).core j = s.core j := rfl
@[simp] theorem State.zeroRange_hall (s : State) (lo hi : Nat) (j : Nat) : (s.zeroRange lo hi).hall j = s.hall j := rfl
@[simp] theorem State.zeroRange_ctx (s : State) (lo hi : Nat) (j : Nat) : (s.zeroRange lo hi).ctx j = s.ctx j := rfl
@[simp] theorem State.zeroRange_ring (s : State) (lo hi : Nat) (j : Nat) : (s.zeroRange lo hi).ring j = s.ring j := rfl
@[simp] theorem State.zeroRange_ready (s : State) (lo hi : Nat) : (s.zeroRange lo hi).ready = s.ready := rfl
@[simp] theorem State.zeroRange_answers (s : State) (lo hi : Nat) : (s.zeroRange lo hi).answers = s.answers := rfl
@[simp] theorem State.zeroRange_timeNs (s : State) (lo hi : Nat) : (s.zeroRange lo hi).timeNs = s.timeNs := rfl
@[simp] theorem State.zeroRange_inStep (s : State) (lo hi : Nat) (j : Nat) : (s.zeroRange lo hi).inStep j = s.inStep j := rfl
@[simp] theorem State.zeroRange_holderOf (s : State) (lo hi : Nat) (j : Nat) : (s.zeroRange lo hi).holderOf j = s.holderOf j := rfl

/-! ### advanceTo -/

/-- Moving the counter on changes the clock alone. -/
theorem State.advanceTo_eq (s : State) (ns : Nat) : s.advanceTo ns = { s with clk := (s.advanceTo ns).clk } := by
  rw [State.advanceTo]
  generalize unitsPerNs * ns = u
  split
  · rfl
  · rfl

@[simp] theorem State.advanceTo_pending (s : State) (ns : Nat) : (s.advanceTo ns).pending = s.pending := by
  rw [State.advanceTo_eq]
@[simp] theorem State.advanceTo_out (s : State) (ns : Nat) : (s.advanceTo ns).out = s.out := by
  rw [State.advanceTo_eq]
@[simp] theorem State.advanceTo_free (s : State) (ns : Nat) : (s.advanceTo ns).free = s.free := by
  rw [State.advanceTo_eq]
@[simp] theorem State.advanceTo_serial (s : State) (ns : Nat) : (s.advanceTo ns).serial = s.serial := by
  rw [State.advanceTo_eq]
@[simp] theorem State.advanceTo_regs (s : State) (ns : Nat) : (s.advanceTo ns).regs = s.regs := by
  rw [State.advanceTo_eq]
@[simp] theorem State.advanceTo_latchedHigh (s : State) (ns : Nat) : (s.advanceTo ns).latchedHigh = s.latchedHigh := by
  rw [State.advanceTo_eq]
@[simp] theorem State.advanceTo_heldLow (s : State) (ns : Nat) : (s.advanceTo ns).heldLow = s.heldLow := by
  rw [State.advanceTo_eq]
@[simp] theorem State.advanceTo_fr (s : State) (ns : Nat) : (s.advanceTo ns).fr = s.fr := by
  rw [State.advanceTo_eq]
@[simp] theorem State.advanceTo_halls (s : State) (ns : Nat) : (s.advanceTo ns).halls = s.halls := by
  rw [State.advanceTo_eq]
@[simp] theorem State.advanceTo_cores (s : State) (ns : Nat) : (s.advanceTo ns).cores = s.cores := by
  rw [State.advanceTo_eq]
@[simp] theorem State.advanceTo_flight (s : State) (ns : Nat) : (s.advanceTo ns).flight = s.flight := by
  rw [State.advanceTo_eq]
@[simp] theorem State.advanceTo_mem (s : State) (ns : Nat) : (s.advanceTo ns).mem = s.mem := by
  rw [State.advanceTo_eq]
@[simp] theorem State.advanceTo_ctxs (s : State) (ns : Nat) : (s.advanceTo ns).ctxs = s.ctxs := by
  rw [State.advanceTo_eq]
@[simp] theorem State.advanceTo_ls (s : State) (ns : Nat) : (s.advanceTo ns).ls = s.ls := by
  rw [State.advanceTo_eq]
@[simp] theorem State.advanceTo_rings (s : State) (ns : Nat) : (s.advanceTo ns).rings = s.rings := by
  rw [State.advanceTo_eq]
@[simp] theorem State.advanceTo_mboxes (s : State) (ns : Nat) : (s.advanceTo ns).mboxes = s.mboxes := by
  rw [State.advanceTo_eq]
@[simp] theorem State.advanceTo_pcie (s : State) (ns : Nat) : (s.advanceTo ns).pcie = s.pcie := by
  rw [State.advanceTo_eq]
@[simp] theorem State.advanceTo_srcWin (s : State) (ns : Nat) : (s.advanceTo ns).srcWin = s.srcWin := by
  rw [State.advanceTo_eq]
@[simp] theorem State.advanceTo_dies (s : State) (ns : Nat) : (s.advanceTo ns).dies = s.dies := by
  rw [State.advanceTo_eq]
@[simp] theorem State.advanceTo_devStep (s : State) (ns : Nat) : (s.advanceTo ns).devStep = s.devStep := by
  rw [State.advanceTo_eq]
@[simp] theorem State.advanceTo_dumps (s : State) (ns : Nat) : (s.advanceTo ns).dumps = s.dumps := by
  rw [State.advanceTo_eq]
@[simp] theorem State.advanceTo_powerCycleReq (s : State) (ns : Nat) : (s.advanceTo ns).powerCycleReq = s.powerCycleReq := by
  rw [State.advanceTo_eq]
@[simp] theorem State.advanceTo_powerCycleCopy (s : State) (ns : Nat) : (s.advanceTo ns).powerCycleCopy = s.powerCycleCopy := by
  rw [State.advanceTo_eq]
@[simp] theorem State.advanceTo_dumpCopies (s : State) (ns : Nat) : (s.advanceTo ns).dumpCopies = s.dumpCopies := by
  rw [State.advanceTo_eq]
@[simp] theorem State.advanceTo_bring (s : State) (ns : Nat) : (s.advanceTo ns).bring = s.bring := by
  rw [State.advanceTo_eq]
@[simp] theorem State.advanceTo_ports (s : State) (ns : Nat) : (s.advanceTo ns).ports = s.ports := by
  rw [State.advanceTo_eq]
@[simp] theorem State.advanceTo_sec (s : State) (ns : Nat) : (s.advanceTo ns).sec = s.sec := by
  rw [State.advanceTo_eq]
@[simp] theorem State.advanceTo_power (s : State) (ns : Nat) : (s.advanceTo ns).power = s.power := by
  rw [State.advanceTo_eq]
@[simp] theorem State.advanceTo_cables (s : State) (ns : Nat) : (s.advanceTo ns).cables = s.cables := by
  rw [State.advanceTo_eq]
@[simp] theorem State.advanceTo_reg (s : State) (ns : Nat) (j : Nat) : (s.advanceTo ns).reg j = s.reg j := by simp only [State.reg, State.advanceTo_regs]
@[simp] theorem State.advanceTo_fld (s : State) (ns : Nat) (j u w : Nat) : (s.advanceTo ns).fld j u w = s.fld j u w := by simp only [State.fld, State.reg, State.advanceTo_regs]
@[simp] theorem State.advanceTo_core (s : State) (ns : Nat) (j : Nat) : (s.advanceTo ns).core j = s.core j := by simp only [State.core, State.advanceTo_cores]
@[simp] theorem State.advanceTo_hall (s : State) (ns : Nat) (j : Nat) : (s.advanceTo ns).hall j = s.hall j := by simp only [State.hall, State.advanceTo_halls]
@[simp] theorem State.advanceTo_ctx (s : State) (ns : Nat) (j : Nat) : (s.advanceTo ns).ctx j = s.ctx j := by simp only [State.ctx, State.advanceTo_ctxs]
@[simp] theorem State.advanceTo_ring (s : State) (ns : Nat) (j : Nat) : (s.advanceTo ns).ring j = s.ring j := by simp only [State.ring, State.advanceTo_rings]
@[simp] theorem State.advanceTo_byte (s : State) (ns : Nat) (j : Nat) : (s.advanceTo ns).byte j = s.byte j := by simp only [State.byte, State.advanceTo_mem]
@[simp] theorem State.advanceTo_ready (s : State) (ns : Nat) : (s.advanceTo ns).ready = s.ready := by simp only [State.ready, State.fld, State.reg, State.advanceTo_regs, State.advanceTo_power]
@[simp] theorem State.advanceTo_answers (s : State) (ns : Nat) : (s.advanceTo ns).answers = s.answers := by simp only [State.answers, State.fld, State.reg, State.advanceTo_regs, State.advanceTo_power]
@[simp] theorem State.advanceTo_inStep (s : State) (ns : Nat) (j : Nat) : (s.advanceTo ns).inStep j = s.inStep j := by simp only [State.inStep, State.hall, State.advanceTo_halls, State.advanceTo_dies, State.advanceTo_devStep]
@[simp] theorem State.advanceTo_holderOf (s : State) (ns : Nat) (j : Nat) : (s.advanceTo ns).holderOf j = s.holderOf j := by simp only [State.holderOf, State.hall, State.advanceTo_halls]

/-! ### idleCycle -/

@[simp] theorem State.idleCycle_pending (s : State) : s.idleCycle.pending = s.pending := rfl
@[simp] theorem State.idleCycle_out (s : State) : s.idleCycle.out = s.out := rfl
@[simp] theorem State.idleCycle_free (s : State) : s.idleCycle.free = s.free := rfl
@[simp] theorem State.idleCycle_serial (s : State) : s.idleCycle.serial = s.serial := rfl
@[simp] theorem State.idleCycle_regs (s : State) : s.idleCycle.regs = s.regs := rfl
@[simp] theorem State.idleCycle_latchedHigh (s : State) : s.idleCycle.latchedHigh = s.latchedHigh := rfl
@[simp] theorem State.idleCycle_heldLow (s : State) : s.idleCycle.heldLow = s.heldLow := rfl
@[simp] theorem State.idleCycle_fr (s : State) : s.idleCycle.fr = s.fr := rfl
@[simp] theorem State.idleCycle_halls (s : State) : s.idleCycle.halls = s.halls := rfl
@[simp] theorem State.idleCycle_cores (s : State) : s.idleCycle.cores = s.cores := rfl
@[simp] theorem State.idleCycle_flight (s : State) : s.idleCycle.flight = s.flight := rfl
@[simp] theorem State.idleCycle_mem (s : State) : s.idleCycle.mem = s.mem := rfl
@[simp] theorem State.idleCycle_ctxs (s : State) : s.idleCycle.ctxs = s.ctxs := rfl
@[simp] theorem State.idleCycle_ls (s : State) : s.idleCycle.ls = s.ls := rfl
@[simp] theorem State.idleCycle_rings (s : State) : s.idleCycle.rings = s.rings := rfl
@[simp] theorem State.idleCycle_mboxes (s : State) : s.idleCycle.mboxes = s.mboxes := rfl
@[simp] theorem State.idleCycle_pcie (s : State) : s.idleCycle.pcie = s.pcie := rfl
@[simp] theorem State.idleCycle_srcWin (s : State) : s.idleCycle.srcWin = s.srcWin := rfl
@[simp] theorem State.idleCycle_dies (s : State) : s.idleCycle.dies = s.dies := rfl
@[simp] theorem State.idleCycle_devStep (s : State) : s.idleCycle.devStep = s.devStep := rfl
@[simp] theorem State.idleCycle_dumps (s : State) : s.idleCycle.dumps = s.dumps := rfl
@[simp] theorem State.idleCycle_powerCycleReq (s : State) : s.idleCycle.powerCycleReq = s.powerCycleReq := rfl
@[simp] theorem State.idleCycle_powerCycleCopy (s : State) : s.idleCycle.powerCycleCopy = s.powerCycleCopy := rfl
@[simp] theorem State.idleCycle_dumpCopies (s : State) : s.idleCycle.dumpCopies = s.dumpCopies := rfl
@[simp] theorem State.idleCycle_bring (s : State) : s.idleCycle.bring = s.bring := rfl
@[simp] theorem State.idleCycle_ports (s : State) : s.idleCycle.ports = s.ports := rfl
@[simp] theorem State.idleCycle_sec (s : State) : s.idleCycle.sec = s.sec := rfl
@[simp] theorem State.idleCycle_power (s : State) : s.idleCycle.power = s.power := rfl
@[simp] theorem State.idleCycle_cables (s : State) : s.idleCycle.cables = s.cables := rfl
@[simp] theorem State.idleCycle_reg (s : State) (j : Nat) : s.idleCycle.reg j = s.reg j := rfl
@[simp] theorem State.idleCycle_fld (s : State) (j u w : Nat) : s.idleCycle.fld j u w = s.fld j u w := rfl
@[simp] theorem State.idleCycle_core (s : State) (j : Nat) : s.idleCycle.core j = s.core j := rfl
@[simp] theorem State.idleCycle_hall (s : State) (j : Nat) : s.idleCycle.hall j = s.hall j := rfl
@[simp] theorem State.idleCycle_ctx (s : State) (j : Nat) : s.idleCycle.ctx j = s.ctx j := rfl
@[simp] theorem State.idleCycle_ring (s : State) (j : Nat) : s.idleCycle.ring j = s.ring j := rfl
@[simp] theorem State.idleCycle_byte (s : State) (j : Nat) : s.idleCycle.byte j = s.byte j := rfl
@[simp] theorem State.idleCycle_ready (s : State) : s.idleCycle.ready = s.ready := rfl
@[simp] theorem State.idleCycle_answers (s : State) : s.idleCycle.answers = s.answers := rfl
@[simp] theorem State.idleCycle_inStep (s : State) (j : Nat) : s.idleCycle.inStep j = s.inStep j := rfl
@[simp] theorem State.idleCycle_holderOf (s : State) (j : Nat) : s.idleCycle.holderOf j = s.holderOf j := rfl

/-! ### What the writing operations leave where they write -/

/-- A register written holds the value, as 64 bits; every other register is as it was. -/
theorem State.reg_setReg (s : State) (a v b : Nat) : (s.setReg a v).reg b = if b = a then v % 2 ^ 64 else s.reg b := by
  unfold State.reg State.setReg
  by_cases h : b = a
  · subst h; simp
  · simp [h, mapGet_mapSet_other _ _ _ _ h]

@[simp] theorem State.reg_setReg_same (s : State) (a v : Nat) : (s.setReg a v).reg a = v % 2 ^ 64 := by simp [State.reg_setReg]

theorem State.reg_setReg_other (s : State) {a b : Nat} (v : Nat) (h : b ≠ a) : (s.setReg a v).reg b = s.reg b := by
  simp [State.reg_setReg, h]

theorem State.reg_lt (s : State) (a : Nat) : s.reg a < 2 ^ 64 := by unfold State.reg; omega

theorem State.core_onCore (s : State) (n m : Nat) (f : Core → Core) :
    (s.onCore n f).core m = if m = n then f (s.core n) else s.core m := mapGet_mapSet _ _ _ _ _

theorem State.core_onCp (s : State) (n m : Nat) (f : Cp → Cp) :
    (s.onCp n f).core m = if m = n then { s.core n with cp := f (s.core n).cp } else s.core m := mapGet_mapSet _ _ _ _ _

theorem State.core_onSeq (s : State) (n m : Nat) (f : Seq → Seq) :
    (s.onSeq n f).core m = if m = n then { s.core n with seq := f (s.core n).seq } else s.core m := mapGet_mapSet _ _ _ _ _

theorem State.hall_onHall (s : State) (n m : Nat) (f : Hall → Hall) :
    (s.onHall n f).hall m = if m = n then f (s.hall n) else s.hall m := mapGet_mapSet _ _ _ _ _

theorem State.ctx_onCtx (s : State) (n m : Nat) (f : Ctx → Ctx) :
    (s.onCtx n f).ctx m = if m = n then f (s.ctx n) else s.ctx m := mapGet_mapSet _ _ _ _ _

theorem State.ring_onRing (s : State) (n m : Nat) (f : Ring → Ring) :
    (s.onRing n f).ring m = if m = n then f (s.ring n) else s.ring m := mapGet_mapSet _ _ _ _ _

/-! ### Bytes of memory -/

/-- The undefined range that a key lies in, as the number of its draw. -/
def undefAt (l : List (Nat × Nat × Nat)) (k : Nat) : Option Nat := (l.find? fun r => r.1 ≤ k && k < r.2.1).map (·.2.2)

theorem State.byte_eq (s : State) (k : Nat) :
    s.byte k = match undefAt s.mem.undef k with | some i => Config.openByte i k | none => mapGet 0 s.mem.cells k := by
  unfold State.byte undefAt
  cases s.mem.undef.find? fun r => r.1 ≤ k && k < r.2.1 <;> rfl

theorem undefAt_append (l m : List (Nat × Nat × Nat)) (k : Nat) : undefAt (l ++ m) k = (undefAt l k).or (undefAt m k) := by
  simp only [undefAt, List.find?_append]
  cases List.find? (fun r => decide (r.1 ≤ k) && decide (k < r.2.1)) l <;> simp

/-- Cutting a stretch out of the undefined ranges leaves every key outside it in its range, and none inside it. -/
theorem undefAt_cutUndef (l : List (Nat × Nat × Nat)) {lo hi : Nat} (_h : lo ≤ hi) (k : Nat) :
    undefAt (cutUndef l lo hi) k = if lo ≤ k ∧ k < hi then none else undefAt l k := by
  induction l with
  | nil => simp [cutUndef, undefAt]
  | cons r l ih =>
    have hc : cutUndef (r :: l) lo hi = (if r.1 < min r.2.1 lo then [(r.1, min r.2.1 lo, r.2.2)] else [])
        ++ ((if max r.1 hi < r.2.1 then [(max r.1 hi, r.2.1, r.2.2)] else []) ++ cutUndef l lo hi) := by simp [cutUndef]
    have h1 : undefAt (r :: l) k = (if r.1 ≤ k ∧ k < r.2.1 then some r.2.2 else none).or (undefAt l k) := by
      simp only [undefAt, List.find?_cons]
      by_cases hk : r.1 ≤ k ∧ k < r.2.1
      · simp [hk.1, hk.2]
      · have : (decide (r.1 ≤ k) && decide (k < r.2.1)) = false := by simpa using hk
        simp [this, hk]
    have one (a b i : Nat) : undefAt (if a < b then [(a, b, i)] else []) k = if a ≤ k ∧ k < b then some i else none := by
      by_cases hab : a < b
      · simp only [hab, if_true, undefAt, List.find?_cons, List.find?_nil]
        by_cases hk : a ≤ k ∧ k < b
        · simp [hk.1, hk.2]
        · have : (decide (a ≤ k) && decide (k < b)) = false := by simpa using hk
          simp [this, hk]
      · simp only [hab, if_false, undefAt, List.find?_nil]
        rw [if_neg (by omega)]; rfl
    rw [hc, undefAt_append, undefAt_append, one, one, ih, h1]
    by_cases hk : lo ≤ k ∧ k < hi
    · rw [if_pos hk, if_neg (by omega), if_neg (by omega), if_pos hk]; rfl
    · rw [if_neg hk, if_neg hk]
      by_cases hr : r.1 ≤ k ∧ k < r.2.1
      · rw [if_pos hr]
        by_cases hl : k < lo
        · rw [if_pos (by omega)]; rfl
        · rw [if_neg (by omega), if_pos (by omega)]; rfl
      · rw [if_neg hr, if_neg (by omega), if_neg (by omega)]; rfl

/-- Bytes written stand where they were written, and every other key reads as before. -/
theorem State.byte_writeBytes (s : State) (k j : Nat) (bs : List Byte) :
    (s.writeBytes k bs).byte j = if k ≤ j ∧ j < k + bs.length then bs.getD (j - k) 0 else s.byte j := by
  rw [State.byte_eq, State.byte_eq]
  show (match undefAt (cutUndef s.mem.undef k (k + bs.length)) j with
    | some i => Config.openByte i j | none => mapGet 0 (writeCells s.mem.cells k bs) j) = _
  rw [undefAt_cutUndef _ (by omega), mapGet_writeCells]
  by_cases h : k ≤ j ∧ j < k + bs.length
  · simp only [if_pos h]
  · simp only [if_neg h]

theorem mapGet_mapDropRange (d : α) (m : SMap α) (lo hi k : Nat) :
    mapGet d (mapDropRange m lo hi) k = if lo ≤ k ∧ k < hi then d else mapGet d m k := by
  induction m with
  | nil => simp [mapDropRange, mapGet]
  | cons e r ih =>
    obtain ⟨j, v⟩ := e
    simp only [mapDropRange] at ih ⊢
    rw [List.filter_cons]
    by_cases hj : (decide (j < lo) || decide (hi ≤ j)) = true
    · rw [if_pos hj]
      simp only [mapGet, ih]
      by_cases hk : j = k
      · subst hk
        have : ¬ (lo ≤ j ∧ j < hi) := by simp at hj; omega
        simp [this]
      · simp [hk]
    · rw [if_neg hj, ih]
      by_cases hk : j = k
      · subst hk
        have : lo ≤ j ∧ j < hi := by simp at hj; omega
        simp [this]
      · simp [mapGet, hk]

/-- A stretch written to zero reads 0, and every other key reads as before. -/
theorem State.byte_zeroRange (s : State) {lo hi : Nat} (h : lo ≤ hi) (j : Nat) :
    (s.zeroRange lo hi).byte j = if lo ≤ j ∧ j < hi then 0 else s.byte j := by
  rw [State.byte_eq, State.byte_eq]
  show (match undefAt (cutUndef s.mem.undef lo hi) j with
    | some i => Config.openByte i j | none => mapGet 0 (mapDropRange s.mem.cells lo hi) j) = _
  rw [undefAt_cutUndef _ h, mapGet_mapDropRange]
  by_cases h : lo ≤ j ∧ j < hi
  · simp only [if_pos h]
  · simp only [if_neg h]

/-- The little-endian bytes of a number are as many as asked for. -/
@[simp] theorem leBytes_length (n v : Nat) : (leBytes n v).length = n := by
  induction n generalizing v with
  | zero => rfl
  | succ n ih => simp [leBytes, ih]

/-- Little-endian bytes spell the number they were made from, up to their length. -/
theorem leNat_leBytes (n v : Nat) : leNat (leBytes n v) = v % 256 ^ n := by
  induction n generalizing v with
  | zero => simp [leBytes, leNat, Nat.mod_one]
  | succ n ih =>
    rw [leBytes, leNat, ih, BitVec.toNat_ofNat, show (2 : Nat) ^ 8 = 256 from rfl, Nat.pow_succ, Nat.mul_comm (256 ^ n) 256, Nat.mod_mul]

/-! ### dropHalves -/

@[simp] theorem State.dropHalves_pending (s : State) (a : Nat) : (s.dropHalves a).pending = s.pending := rfl
@[simp] theorem State.dropHalves_out (s : State) (a : Nat) : (s.dropHalves a).out = s.out := rfl
@[simp] theorem State.dropHalves_free (s : State) (a : Nat) : (s.dropHalves a).free = s.free := rfl
@[simp] theorem State.dropHalves_serial (s : State) (a : Nat) : (s.dropHalves a).serial = s.serial := rfl
@[simp] theorem State.dropHalves_regs (s : State) (a : Nat) : (s.dropHalves a).regs = s.regs := rfl
@[simp] theorem State.dropHalves_clk (s : State) (a : Nat) : (s.dropHalves a).clk = s.clk := rfl
@[simp] theorem State.dropHalves_fr (s : State) (a : Nat) : (s.dropHalves a).fr = s.fr := rfl
@[simp] theorem State.dropHalves_halls (s : State) (a : Nat) : (s.dropHalves a).halls = s.halls := rfl
@[simp] theorem State.dropHalves_cores (s : State) (a : Nat) : (s.dropHalves a).cores = s.cores := rfl
@[simp] theorem State.dropHalves_flight (s : State) (a : Nat) : (s.dropHalves a).flight = s.flight := rfl
@[simp] theorem State.dropHalves_mem (s : State) (a : Nat) : (s.dropHalves a).mem = s.mem := rfl
@[simp] theorem State.dropHalves_ctxs (s : State) (a : Nat) : (s.dropHalves a).ctxs = s.ctxs := rfl
@[simp] theorem State.dropHalves_ls (s : State) (a : Nat) : (s.dropHalves a).ls = s.ls := rfl
@[simp] theorem State.dropHalves_rings (s : State) (a : Nat) : (s.dropHalves a).rings = s.rings := rfl
@[simp] theorem State.dropHalves_mboxes (s : State) (a : Nat) : (s.dropHalves a).mboxes = s.mboxes := rfl
@[simp] theorem State.dropHalves_pcie (s : State) (a : Nat) : (s.dropHalves a).pcie = s.pcie := rfl
@[simp] theorem State.dropHalves_srcWin (s : State) (a : Nat) : (s.dropHalves a).srcWin = s.srcWin := rfl
@[simp] theorem State.dropHalves_dies (s : State) (a : Nat) : (s.dropHalves a).dies = s.dies := rfl
@[simp] theorem State.dropHalves_devStep (s : State) (a : Nat) : (s.dropHalves a).devStep = s.devStep := rfl
@[simp] theorem State.dropHalves_dumps (s : State) (a : Nat) : (s.dropHalves a).dumps = s.dumps := rfl
@[simp] theorem State.dropHalves_powerCycleReq (s : State) (a : Nat) : (s.dropHalves a).powerCycleReq = s.powerCycleReq := rfl
@[simp] theorem State.dropHalves_powerCycleCopy (s : State) (a : Nat) : (s.dropHalves a).powerCycleCopy = s.powerCycleCopy := rfl
@[simp] theorem State.dropHalves_dumpCopies (s : State) (a : Nat) : (s.dropHalves a).dumpCopies = s.dumpCopies := rfl
@[simp] theorem State.dropHalves_bring (s : State) (a : Nat) : (s.dropHalves a).bring = s.bring := rfl
@[simp] theorem State.dropHalves_ports (s : State) (a : Nat) : (s.dropHalves a).ports = s.ports := rfl
@[simp] theorem State.dropHalves_sec (s : State) (a : Nat) : (s.dropHalves a).sec = s.sec := rfl
@[simp] theorem State.dropHalves_power (s : State) (a : Nat) : (s.dropHalves a).power = s.power := rfl
@[simp] theorem State.dropHalves_cables (s : State) (a : Nat) : (s.dropHalves a).cables = s.cables := rfl
@[simp] theorem State.dropHalves_core (s : State) (a j : Nat) : (s.dropHalves a).core j = s.core j := rfl
@[simp] theorem State.dropHalves_hall (s : State) (a j : Nat) : (s.dropHalves a).hall j = s.hall j := rfl
@[simp] theorem State.dropHalves_ctx (s : State) (a j : Nat) : (s.dropHalves a).ctx j = s.ctx j := rfl
@[simp] theorem State.dropHalves_ring (s : State) (a j : Nat) : (s.dropHalves a).ring j = s.ring j := rfl
@[simp] theorem State.dropHalves_reg (s : State) (a j : Nat) : (s.dropHalves a).reg j = s.reg j := rfl
@[simp] theorem State.dropHalves_byte (s : State) (a j : Nat) : (s.dropHalves a).byte j = s.byte j := rfl
@[simp] theorem State.dropHalves_inStep (s : State) (a j : Nat) : (s.dropHalves a).inStep j = s.inStep j := rfl
@[simp] theorem State.dropHalves_holderOf (s : State) (a j : Nat) : (s.dropHalves a).holderOf j = s.holderOf j := rfl
@[simp] theorem State.dropHalves_fld (s : State) (a j u w : Nat) : (s.dropHalves a).fld j u w = s.fld j u w := rfl
@[simp] theorem State.dropHalves_ready (s : State) (a : Nat) : (s.dropHalves a).ready = s.ready := rfl
@[simp] theorem State.dropHalves_answers (s : State) (a : Nat) : (s.dropHalves a).answers = s.answers := rfl
@[simp] theorem State.dropHalves_timeNs (s : State) (a : Nat) : (s.dropHalves a).timeNs = s.timeNs := rfl
@[simp] theorem State.dropHalves_frame (s : State) (a : Nat) : (s.dropHalves a).frame = s.frame := rfl

/-! ### ppsLow -/

/-- 1PPS_OUT falls: only the pin's level and what was sent change. -/
theorem State.ppsLow_eq (s : State) : s.ppsLow = { s with fr := s.ppsLow.fr, out := s.ppsLow.out } := by
  unfold State.ppsLow; split <;> rfl
@[simp] theorem State.ppsLow_pending (s : State) : s.ppsLow.pending = s.pending := by rw [State.ppsLow_eq]
@[simp] theorem State.ppsLow_free (s : State) : s.ppsLow.free = s.free := by rw [State.ppsLow_eq]
@[simp] theorem State.ppsLow_serial (s : State) : s.ppsLow.serial = s.serial := by rw [State.ppsLow_eq]
@[simp] theorem State.ppsLow_regs (s : State) : s.ppsLow.regs = s.regs := by rw [State.ppsLow_eq]
@[simp] theorem State.ppsLow_clk (s : State) : s.ppsLow.clk = s.clk := by rw [State.ppsLow_eq]
@[simp] theorem State.ppsLow_halls (s : State) : s.ppsLow.halls = s.halls := by rw [State.ppsLow_eq]
@[simp] theorem State.ppsLow_cores (s : State) : s.ppsLow.cores = s.cores := by rw [State.ppsLow_eq]
@[simp] theorem State.ppsLow_flight (s : State) : s.ppsLow.flight = s.flight := by rw [State.ppsLow_eq]
@[simp] theorem State.ppsLow_mem (s : State) : s.ppsLow.mem = s.mem := by rw [State.ppsLow_eq]
@[simp] theorem State.ppsLow_ctxs (s : State) : s.ppsLow.ctxs = s.ctxs := by rw [State.ppsLow_eq]
@[simp] theorem State.ppsLow_ls (s : State) : s.ppsLow.ls = s.ls := by rw [State.ppsLow_eq]
@[simp] theorem State.ppsLow_rings (s : State) : s.ppsLow.rings = s.rings := by rw [State.ppsLow_eq]
@[simp] theorem State.ppsLow_mboxes (s : State) : s.ppsLow.mboxes = s.mboxes := by rw [State.ppsLow_eq]
@[simp] theorem State.ppsLow_pcie (s : State) : s.ppsLow.pcie = s.pcie := by rw [State.ppsLow_eq]
@[simp] theorem State.ppsLow_srcWin (s : State) : s.ppsLow.srcWin = s.srcWin := by rw [State.ppsLow_eq]
@[simp] theorem State.ppsLow_dies (s : State) : s.ppsLow.dies = s.dies := by rw [State.ppsLow_eq]
@[simp] theorem State.ppsLow_devStep (s : State) : s.ppsLow.devStep = s.devStep := by rw [State.ppsLow_eq]
@[simp] theorem State.ppsLow_dumps (s : State) : s.ppsLow.dumps = s.dumps := by rw [State.ppsLow_eq]
@[simp] theorem State.ppsLow_powerCycleReq (s : State) : s.ppsLow.powerCycleReq = s.powerCycleReq := by rw [State.ppsLow_eq]
@[simp] theorem State.ppsLow_powerCycleCopy (s : State) : s.ppsLow.powerCycleCopy = s.powerCycleCopy := by rw [State.ppsLow_eq]
@[simp] theorem State.ppsLow_dumpCopies (s : State) : s.ppsLow.dumpCopies = s.dumpCopies := by rw [State.ppsLow_eq]
@[simp] theorem State.ppsLow_bring (s : State) : s.ppsLow.bring = s.bring := by rw [State.ppsLow_eq]
@[simp] theorem State.ppsLow_ports (s : State) : s.ppsLow.ports = s.ports := by rw [State.ppsLow_eq]
@[simp] theorem State.ppsLow_sec (s : State) : s.ppsLow.sec = s.sec := by rw [State.ppsLow_eq]
@[simp] theorem State.ppsLow_power (s : State) : s.ppsLow.power = s.power := by rw [State.ppsLow_eq]
@[simp] theorem State.ppsLow_cables (s : State) : s.ppsLow.cables = s.cables := by rw [State.ppsLow_eq]
@[simp] theorem State.ppsLow_latchedHigh (s : State) : s.ppsLow.latchedHigh = s.latchedHigh := by rw [State.ppsLow_eq]
@[simp] theorem State.ppsLow_heldLow (s : State) : s.ppsLow.heldLow = s.heldLow := by rw [State.ppsLow_eq]
@[simp] theorem State.ppsLow_core (s : State) (j : Nat) : s.ppsLow.core j = s.core j := by rw [State.ppsLow_eq]; rfl
@[simp] theorem State.ppsLow_hall (s : State) (j : Nat) : s.ppsLow.hall j = s.hall j := by rw [State.ppsLow_eq]; rfl
@[simp] theorem State.ppsLow_ctx (s : State) (j : Nat) : s.ppsLow.ctx j = s.ctx j := by rw [State.ppsLow_eq]; rfl
@[simp] theorem State.ppsLow_ring (s : State) (j : Nat) : s.ppsLow.ring j = s.ring j := by rw [State.ppsLow_eq]; rfl
@[simp] theorem State.ppsLow_reg (s : State) (j : Nat) : s.ppsLow.reg j = s.reg j := by rw [State.ppsLow_eq]; rfl
@[simp] theorem State.ppsLow_byte (s : State) (j : Nat) : s.ppsLow.byte j = s.byte j := by rw [State.ppsLow_eq]; rfl
@[simp] theorem State.ppsLow_ppsHigh (s : State) : s.ppsLow.fr.ppsHigh = false := by
  unfold State.ppsLow; split <;> simp_all [State.emit]

/-! ### The canonical form of the memory -/

theorem State.writeBytes_wf (s : State) (k : Nat) (bs : List Byte) (h : Memory.wf s.mem.cells = true) :
    Memory.wf (s.writeBytes k bs).mem.cells = true := writeCells_wf _ _ _ h

theorem State.writeNat_wf (s : State) (k n v : Nat) (h : Memory.wf s.mem.cells = true) :
    Memory.wf (s.writeNat k n v).mem.cells = true := writeCells_wf _ _ _ h

theorem State.writeList_wf (s : State) (l : List (Nat × Byte)) (h : Memory.wf s.mem.cells = true) :
    Memory.wf (s.writeList l).mem.cells = true := foldl_writeCell_wf _ _ h

theorem State.forget_wf (s : State) (lo hi : Nat) (h : Memory.wf s.mem.cells = true) :
    Memory.wf (s.forget lo hi).mem.cells = true := mapWf_mapDropRange _ _ _ _ h

theorem State.zeroRange_wf (s : State) (lo hi : Nat) (h : Memory.wf s.mem.cells = true) :
    Memory.wf (s.zeroRange lo hi).mem.cells = true := mapWf_mapDropRange _ _ _ _ h


end Sys2Proof.Machine
end

