-- ==== Sys2Proof/Safety.lean ====
section
/-! DEFINITION. What counts as a safe step: the command has an effect; it neither stops the machine nor is refused. -/
namespace Sys2Proof.Machine

/-- Whether an outcome is a next state. -/
def Completes (o : Host.Outcome State Fault Refusal) : Prop := ∃ t, o = .next t

/-- Whether a command completes in a state, whatever the state's values. -/
def SafeCommand (c : Instr) : Prop := ∀ s : State, Completes (exec c s)

end Sys2Proof.Machine
end

