-- ==== Sys2Proof/WellFormed.lean ====
section
/-! DEFINITION. Which commands are well formed: every operand names something that the device has. A meaning is given to
the others as well; what names nothing leaves the device as it was. -/
namespace Sys2Proof

/-- A core of the grid of 80 by 50 (R23). -/
def Coord.inGrid (c : Coord) : Bool := c.x < 80 && c.y < 50

/-- The PF or one of the 16 virtual functions (R503). -/
def fnOk (fn : Fn) : Bool := fn ≤ 16

/-- One of the 16 virtual functions (R503). -/
def vfOk (fn : Fn) : Bool := 1 ≤ fn && fn ≤ 16

/-- One of the 160 galleries (R26). -/
def galleryOk (g : BitVec 8) : Bool := g < 160

/-- One of the 27 slots of a gallery (R30). -/
def slotOk (t : BitVec 5) : Bool := t < 27

/-- One of the 34 rails (19 Table 19.1). -/
def railOk (r : BitVec 6) : Bool := r < 34

/-- One of the 30 temperature sensors (19 R630). -/
def sensorOk (n : BitVec 5) : Bool := n < 30

/-- A packet of the type that its row carries, or a header slot of a reserved TYPE in its place (R516), between cores of the grid, with
at most 1 MiB of data (R335, R354). -/
def Packet.ok (p : Packet) (t : PacketType) : Bool :=
  (p.type == t || p.type == .reserved) && p.dst.inGrid && p.src.inGrid && decide (p.data.length ≤ 1048576)

/-- A PTP message of the type that its row carries, with less than a second of nanoseconds (R543). -/
def PtpMsg.ok (m : PtpMsg) (t : Nat) : Bool := m.type.toNat == t && m.ns < 1000000000

/-- An answer of `n` bytes, or a failed request. -/
def HostRead.size (r : HostRead) (n : Nat) : Bool :=
  match r with
  | .data bytes => bytes.length == n
  | .failed => true

/-- Readings of the 30 sensors and the 34 rails (R629, R630). -/
def Telemetry.ok (t : Telemetry) : Bool := t.temps.length == 30 && t.rails.length == 34

/-- A reading of a slot of a gallery (R633). -/
def PathReading.ok (r : PathReading) : Bool := galleryOk r.gallery && slotOk r.slot

/-- What a phase of bring-up reports names image slots 1 to 3, slots of the galleries, monitors and cores (R668). -/
def PhaseResult.ok (r : PhaseResult) : Bool :=
  match r with
  | .rom => true
  | .images => true
  | .hbm _ => true
  | .identity => true
  | .margin readings => readings.all PathReading.ok
  | .slots failed => failed.all fun e => galleryOk e.1 && slotOk e.2
  | .kat wrong => wrong.all Coord.inGrid

/-- Whether a command is well formed. -/
def Instr.wf (i : Instr) : Bool :=
  match i with
  | .regLowHalfRead fn _ => fnOk fn
  | .regLowHalfWrite fn _ _ => fnOk fn
  | .regHighHalfWrite fn _ _ => fnOk fn
  | .regAccess fn _ _ _ _ => fnOk fn
  | .rcRead fn _ _ => fnOk fn
  | .rw1cWrite fn _ _ _ => fnOk fn
  | .registerWrite fn _ _ => fnOk fn
  | .ftkSourceChange _ => true
  | .ftkRunStart _ => true
  | .ftkRunStop _ => true
  | .ftkSet => true
  | .ftkSnap => true
  | .ftkConfigWrite _ _ => true
  | .holdoverExpired => true
  | .ppsInEdge => true
  | .ppsInMissing => true
  | .tick => true
  | .galleryStart g => galleryOk g
  | .mainQueueStart core => core.inGrid
  | .landingOpen => true
  | .lsflag _ p => p.ok .lsflag
  | .lsRoundEnd _ => true
  | .hallHandoverDone _ => true
  | .admissions _ => true
  | .epochEntriesWritten _ => true
  | .arrayMatmul core _ => core.inGrid
  | .arrayStepCompletion core => core.inGrid
  | .rampDownEnd core => core.inGrid
  | .vectorAdd core _ => core.inGrid
  | .vectorSub core _ => core.inGrid
  | .vectorMul core _ => core.inGrid
  | .vectorMax core _ => core.inGrid
  | .vectorMin core _ => core.inGrid
  | .vectorFma core _ => core.inGrid
  | .scale core _ => core.inGrid
  | .cvt core _ => core.inGrid
  | .fill core _ => core.inGrid
  | .rsinit core _ => core.inGrid
  | .exp core _ => core.inGrid
  | .rsqrt core _ => core.inGrid
  | .recip core _ => core.inGrid
  | .relu core _ => core.inGrid
  | .lrelu core _ => core.inGrid
  | .sigmoid core _ => core.inGrid
  | .tanh core _ => core.inGrid
  | .softplus core _ => core.inGrid
  | .elu core _ => core.inGrid
  | .sqrelu core _ => core.inGrid
  | .gelu core _ => core.inGrid
  | .silu core _ => core.inGrid
  | .doutRelu core _ => core.inGrid
  | .doutLrelu core _ => core.inGrid
  | .doutSigmoid core _ => core.inGrid
  | .doutTanh core _ => core.inGrid
  | .doutSoftplus core _ => core.inGrid
  | .doutElu core _ => core.inGrid
  | .doutSqrelu core _ => core.inGrid
  | .doutExp core _ => core.inGrid
  | .rownorm core _ => core.inGrid
  | .segsum core _ => core.inGrid
  | .iadd core _ => core.inGrid
  | .isub core _ => core.inGrid
  | .imul core _ => core.inGrid
  | .imax core _ => core.inGrid
  | .imin core _ => core.inGrid
  | .vectorIterationCompletion core => core.inGrid
  | .moverCopy core _ => core.inGrid
  | .gather core _ => core.inGrid
  | .scatter core _ => core.inGrid
  | .moverIterationCompletion core => core.inGrid
  | .meshPut core _ => core.inGrid
  | .meshPutAdd core _ => core.inGrid
  | .syncWait core _ => core.inGrid
  | .syncSignal core _ => core.inGrid
  | .frameEnd core _ => core.inGrid
  | .frameEndReached core => core.inGrid
  | .branch core _ => core.inGrid
  | .loop core _ => core.inGrid
  | .endloop core _ => core.inGrid
  | .tloadComplete core _ => core.inGrid
  | .tpatchComplete core _ => core.inGrid
  | .add core _ _ _ => core.inGrid
  | .sub core _ _ _ => core.inGrid
  | .and core _ _ _ => core.inGrid
  | .or core _ _ _ => core.inGrid
  | .xor core _ _ _ => core.inGrid
  | .sll core _ _ _ => core.inGrid
  | .srl core _ _ _ => core.inGrid
  | .sra core _ _ _ => core.inGrid
  | .mul core _ _ _ => core.inGrid
  | .mulh core _ _ _ => core.inGrid
  | .mulhu core _ _ _ => core.inGrid
  | .div core _ _ _ => core.inGrid
  | .divu core _ _ _ => core.inGrid
  | .rem core _ _ _ => core.inGrid
  | .remu core _ _ _ => core.inGrid
  | .min core _ _ _ => core.inGrid
  | .max core _ _ _ => core.inGrid
  | .minu core _ _ _ => core.inGrid
  | .maxu core _ _ _ => core.inGrid
  | .addi core _ _ _ => core.inGrid
  | .andi core _ _ _ => core.inGrid
  | .ori core _ _ _ => core.inGrid
  | .xori core _ _ _ => core.inGrid
  | .slli core _ _ _ => core.inGrid
  | .srli core _ _ _ => core.inGrid
  | .srai core _ _ _ => core.inGrid
  | .lui core _ _ => core.inGrid
  | .aadd core _ _ _ => core.inGrid
  | .asetlo core _ _ => core.inGrid
  | .asethi core _ _ => core.inGrid
  | .agetlo core _ _ => core.inGrid
  | .agethi core _ _ => core.inGrid
  | .amov core _ _ => core.inGrid
  | .azx core _ _ => core.inGrid
  | .aaddi core _ _ _ => core.inGrid
  | .cmp core _ _ _ _ => core.inGrid
  | .cmpi core _ _ _ _ => core.inGrid
  | .pand core _ _ _ => core.inGrid
  | .por core _ _ _ => core.inGrid
  | .pxor core _ _ _ => core.inGrid
  | .pandn core _ _ _ => core.inGrid
  | .sel core _ _ _ _ => core.inGrid
  | .br core _ _ _ => core.inGrid
  | .jal core _ _ => core.inGrid
  | .jr core _ => core.inGrid
  | .ldb core _ _ _ => core.inGrid
  | .ldbu core _ _ _ => core.inGrid
  | .ldh core _ _ _ => core.inGrid
  | .ldhu core _ _ _ => core.inGrid
  | .ldw core _ _ _ => core.inGrid
  | .lda core _ _ _ => core.inGrid
  | .stb core _ _ _ => core.inGrid
  | .sth core _ _ _ => core.inGrid
  | .stw core _ _ _ => core.inGrid
  | .sta core _ _ _ => core.inGrid
  | .dcreate core _ _ _ => core.inGrid
  | .dcopy core _ _ => core.inGrid
  | .dinv core _ => core.inGrid
  | .tload core _ _ => core.inGrid
  | .tgo core _ _ => core.inGrid
  | .tswitch core _ _ _ _ => core.inGrid
  | .twait core _ _ => core.inGrid
  | .twaitRetire core => core.inGrid
  | .tpatch core _ _ _ _ => core.inGrid
  | .send core _ _ => core.inGrid
  | .sendResume core => core.inGrid
  | .recv core _ _ _ => core.inGrid
  | .recvResume core => core.inGrid
  | .probe core _ _ => core.inGrid
  | .landwait core _ => core.inGrid
  | .landwaitResume core => core.inGrid
  | .fence core _ => core.inGrid
  | .fenceResume core => core.inGrid
  | .csrr core _ _ => core.inGrid
  | .csrw core _ _ => core.inGrid
  | .trap core _ => core.inGrid
  | .tret core => core.inGrid
  | .halt core => core.inGrid
  | .msg _ p => p.ok .msg
  | .creditReq _ p => p.ok .creditReq
  | .creditGrant _ p => p.ok .creditGrant
  | .creditRet _ p => p.ok .creditRet
  | .put _ p => p.ok .put
  | .putAdd _ p => p.ok .putAdd
  | .signal _ p => p.ok .signal
  | .ack _ p => p.ok .ack
  | .nack _ p => p.ok .nack
  | .creditReqRetry core => core.inGrid
  | .creditExpiry core _ => core.inGrid
  | .grantRecordExpiry core _ _ => core.inGrid
  | .msgCreditTimeout core => core.inGrid
  | .epochAheadRetry core _ => core.inGrid
  | .meshDeadlock _ => true
  | .linkRspTimeout core _ => core.inGrid
  | .quarantineDrop gallery slot => galleryOk gallery && slotOk slot
  | .patrolScrub key bytes upsets _ => upsets.all fun e => key ≤ e.1 && decide (e.1.toNat < key.toNat + bytes.toNat)
  | .channelTestEnter _ => true
  | .channelTestExit _ => true
  | .tgStart _ _ => true
  | .tgStop _ => true
  | .tgRunEnd _ _ => true
  | .potQuery _ => true
  | .potLookupDone => true
  | .channelTrainingEnd _ _ => true
  | .bar4Read fn _ len => fnOk fn && (len.toNat ≤ 4096)
  | .bar4Write fn _ data => fnOk fn && (data.length ≤ 4096)
  | .sqTail fn _ _ => fnOk fn
  | .cqHead fn _ _ => fnOk fn
  | .commandFetch _ r => r.size 64
  | .nop _ _ => true
  | .createRing _ _ => true
  | .deleteRing _ _ => true
  | .vfConfig _ _ => true
  | .evictArea _ _ => true
  | .createContext _ _ => true
  | .destroyContext _ _ => true
  | .rangeCreate _ _ => true
  | .rangeRemove _ _ => true
  | .hallSet _ _ => true
  | .attach _ _ _ => true
  | .detach _ _ => true
  | .exportCommand _ _ => true
  | .packageWritten _ _ => true
  | .copy _ _ _ => true
  | .submitKernel _ _ => true
  | .batch _ _ _ => true
  | .fenceCommand _ _ => true
  | .loadShard _ _ => true
  | .loadData _ _ => true
  | .shardFetchDone _ _ _ => true
  | .shardTimeout _ _ => true
  | .switchVersion _ _ => true
  | .discardVersion _ _ => true
  | .restoreImage _ _ _ => true
  | .digestRecheck _ _ _ _ => true
  | .mailboxRead fn _ => fnOk fn
  | .featureLock => true
  | .adminRingEnable fn _ => fnOk fn
  | .adminRingDisable fn _ => fnOk fn
  | .ringQuery fn _ => fnOk fn
  | .pfFlr => true
  | .perstN => true
  | .linkLoss => true
  | .vfFlr vf => vfOk vf
  | .vfEnableSet => true
  | .vfEnableClear => true
  | .msixUnmask fn _ => fnOk fn
  | .bar4Resize _ => true
  | .portEnable _ _ => true
  | .portDisable _ _ => true
  | .laneReset _ _ => true
  | .trainingComplete _ _ => true
  | .trainingTimeout _ => true
  | .trainingRetry _ => true
  | .lossOfSignal _ _ => true
  | .laneUeLimit _ _ => true
  | .badFlit _ _ codewords => codewords ≠ 0
  | .replayReq _ _ => true
  | .replayReqRepeat _ => true
  | .replayStart _ _ => true
  | .link _ _ _ => true
  | .align _ _ _ _ => true
  | .ident _ _ _ _ _ => true
  | .deviceIdWrite _ => true
  | .routeWrite _ _ => true
  | .ptpRoleWrite _ _ => true
  | .marginScan _ _ => true
  | .marginScanDone _ _ _ _ => true
  | .bulkRead _ p => p.ok .bulkRead
  | .bulkData _ p => p.ok .bulkData
  | .syncInterval _ => true
  | .sync _ m => m.ok 0
  | .followUp _ m => m.ok 8
  | .delayReq _ m => m.ok 1
  | .delayResp _ m => m.ok 9
  | .ptpLost => true
  | .faultEvent _ _ _ _ _ x y => (Coord.mk x y).inGrid
  | .latchClear _ => true
  | .dumpReadTimeout _ _ _ => true
  | .dumpTimeLimit _ _ => true
  | .resetStepEnd _ failed => failed.all fun e => galleryOk e.1 && slotOk e.2
  | .resetDeadline _ => true
  | .replayLimitReached _ => true
  | .rstReqCompute _ => true
  | .rstReqHall _ => true
  | .rstReqDie die => die < 4
  | .rstReqDevice => true
  | .rstReqPowerCycle => true
  | .dumpCopy _ => true
  | .dumpCopyDone _ => true
  | .identityDerivationEnd _ => true
  | .getCert => true
  | .attest => true
  | .markRetire => true
  | .slotRetest => true
  | .flashWrite => true
  | .mailboxDone _ => true
  | .liveRecordWriteEnd _ => true
  | .classRequest _ => true
  | .pwrBrakeNFall => true
  | .pwrBrakeNRise => true
  | .inputUv => true
  | .inputPowerOff => true
  | .inputOv => true
  | .railFault rail => railOk rail
  | .hallDroop _ => true
  | .inputSample _ => true
  | .telemetryUpdate t => t.ok
  | .maintenanceRequest => true
  | .maintenanceInterval => true
  | .pathDelaySample readings => readings.all PathReading.ok
  | .pwrEnRise => true
  | .pwrGoodRelease => true
  | .railRampTimeout => true
  | .pwrEnFall => true
  | .refclkLoss => true
  | .cblPrsntNLow _ kind => kind < 3
  | .cblPrsntNHigh _ => true
  | .vcblOverload _ => true
  | .status => true
  | .input => true
  | .inputPeak => true
  | .energy => true
  | .faults => true
  | .tempN n => sensorOk n
  | .railN r => railOk r
  | .serial => true
  | .part => true
  | .versions => true
  | .alertResponse => true
  | .bringupPhaseEnd r => r.ok
  | .katPrivateTick => true
  | .bringupTimeout => true
  | .regHighHalfRead fn _ => fnOk fn
  | .ctxLsDecide _ _ => true
  | .ctxLsCtrlWrite _ _ => true
  | .ppsOutSecond => true
  | .illegal core _ => core.inGrid
  | .linkUp _ _ => true
  | .ringInfoValid fn => fnOk fn

end Sys2Proof
end

