-- ==== Sys2Proof/Certificates/Slice0/Obligations.lean ====
section
/-! DEFINITION. What is claimed of the block, for the provers. Each statement's docstring names the rules of spec/ it comes
from; where it rests on a choice of the model, it names the log entry. -/
open Sys2Proof Sys2Proof.Machine

namespace Sys2Proof.Claims

/-- The two states differ at most in core `n`. -/
def OnlyCore (s t : State) (n : Nat) : Prop :=
  t = { s with cores := t.cores } ∧ ∀ m, m ≠ n → t.core m = s.core m

/-- The two states differ at most in the control processor of core `n`. -/
def OnlyCp (s t : State) (n : Nat) : Prop := OnlyCore s t n ∧ (t.core n).seq = (s.core n).seq

/-- The control processor of a core can issue an instruction that has one after it in the program store. -/
def Ready (s : State) (core : Coord) : Prop :=
  s.cpReady core = true ∧ (s.core (coreNo core)).cp.pc ≠ 4095

/-- The control processor that `c` becomes when an instruction retires and the next in sequence follows. -/
def after (c : Cp) : Cp := { c with pc := c.pc + 1, instret := c.instret + 1 }

/-- A scalar register receives a value, unless it is s0; every other one keeps its own. -/
def SReg (c c' : Cp) (rd : Nat) (v : W32) : Prop := ∀ r, c'.sreg r = if r = rd ∧ r ≠ 0 then v else c.sreg r
/-- An address register receives a value; every other one keeps its own. -/
def AReg (c c' : Cp) (rd : Nat) (v : W64) : Prop := ∀ r, c'.areg r = if r = rd then v else c.areg r
/-- A predicate register receives a value, unless it is p0; every other one keeps its own. -/
def PReg (c c' : Cp) (pd : Nat) (v : Bool) : Prop := ∀ r, r < 8 → c'.preg r = if r = pd ∧ r ≠ 0 then v else c.preg r
/-- A descriptor register receives a value; every other one keeps its own. -/
def DRegs (c c' : Cp) (dd : Nat) (v : DReg) : Prop := ∀ r, c'.dreg r = if r = dd then v else c.dreg r

/-- The instruction retires with `s[rd] := v`, and nothing else in the device changes. -/
def WritesS (i : Instr) (s : State) (n rd : Nat) (v : W32) : Prop :=
  ∃ t, exec i s = .next t ∧ OnlyCp s t n ∧ SReg (s.core n).cp (t.core n).cp rd v
    ∧ (t.core n).cp = { after (s.core n).cp with s := (t.core n).cp.s }

/-- The instruction retires with `a[rd] := v`, and nothing else in the device changes. -/
def WritesA (i : Instr) (s : State) (n rd : Nat) (v : W64) : Prop :=
  ∃ t, exec i s = .next t ∧ OnlyCp s t n ∧ AReg (s.core n).cp (t.core n).cp rd v
    ∧ (t.core n).cp = { after (s.core n).cp with a := (t.core n).cp.a }

/-- The instruction retires with `p[pd] := v`, and nothing else in the device changes. -/
def WritesP (i : Instr) (s : State) (n pd : Nat) (v : Bool) : Prop :=
  ∃ t, exec i s = .next t ∧ OnlyCp s t n ∧ PReg (s.core n).cp (t.core n).cp pd v
    ∧ (t.core n).cp = { after (s.core n).cp with p := (t.core n).cp.p }

/-- The instruction retires with `d[dd] := v`, and nothing else in the device changes. -/
def WritesD (i : Instr) (s : State) (n dd : Nat) (v : DReg) : Prop :=
  ∃ t, exec i s = .next t ∧ OnlyCp s t n ∧ DRegs (s.core n).cp (t.core n).cp dd v
    ∧ (t.core n).cp = { after (s.core n).cp with d := (t.core n).cp.d }

/-- The instruction goes on at index `pc` of the program store, and nothing else in the device changes. -/
def GoesTo (i : Instr) (s : State) (n pc : Nat) : Prop :=
  ∃ t, exec i s = .next t ∧ OnlyCp s t n
    ∧ (t.core n).cp = { (s.core n).cp with pc := BitVec.ofNat 12 pc, instret := (s.core n).cp.instret + 1 }

/-- The handler of a control processor is enabled and not entered (R206). -/
def HandlerOn (s : State) (n : Nat) : Prop :=
  (s.core n).cp.tvec.getLsbD 12 = true ∧ (s.core n).cp.inHandler = false

/-- The trap of the instruction at `epc` is handled (R206): tepc, tcause and tval are written, the handler is entered at
its target, and nothing else in the device changes. -/
def Handled (i : Instr) (s : State) (n cause tval epc : Nat) : Prop :=
  ∃ t, exec i s = .next t ∧ OnlyCp s t n
    ∧ (t.core n).cp = { (s.core n).cp with
        tepc := BitVec.ofNat 12 epc, tcause := BitVec.ofNat 8 cause, tval := BitVec.ofNat 64 tval
        inHandler := true, pc := (s.core n).cp.tvec.truncate 12 }

end Sys2Proof.Claims

open Sys2Proof.Claims in
/-- Each instruction of the INT group writes its result to s[RD] and changes nothing else. For every core whose
control processor can issue, and every RD, RS1 and RS2: ADD to MAXU answer a next state in which s[RD] holds the
result of Table 6.7 on the two sources (R215 gives the division corners), pc and instret advance by one, and every
other register, flag, core, memory byte and register of the device is as it was. A destination of s0 is discarded. It
rests on cores that can issue and on an instruction with one after it; where pc is 4,095 another statement says what
follows. (06 Table 6.7, R192, R214, R215). -/
def Obligations.IntegerInstructionResults : Prop :=
  ∀ (s : State) (core : Coord) (rd rs1 rs2 : RegNo), Ready s core →
    let n := coreNo core
    let a := (s.core n).cp.sreg rs1.toNat
    let b := (s.core n).cp.sreg rs2.toNat
    ∀ p ∈ ([(.add core rd rs1 rs2, a + b), (.sub core rd rs1 rs2, a - b), (.and core rd rs1 rs2, a &&& b),
        (.or core rd rs1 rs2, a ||| b), (.xor core rd rs1 rs2, a ^^^ b),
        (.sll core rd rs1 rs2, a <<< (b.toNat % 32)), (.srl core rd rs1 rs2, a >>> (b.toNat % 32)),
        (.sra core rd rs1 rs2, a.sshiftRight (b.toNat % 32)),
        (.mul core rd rs1 rs2, a * b), (.mulh core rd rs1 rs2, BitVec.ofInt 32 (a.toInt * b.toInt / 2 ^ 32)),
        (.mulhu core rd rs1 rs2, BitVec.ofNat 32 (a.toNat * b.toNat / 2 ^ 32)),
        (.div core rd rs1 rs2, if b = 0 then 0xFFFFFFFF else a.sdiv b),
        (.divu core rd rs1 rs2, if b = 0 then 0xFFFFFFFF else BitVec.ofNat 32 (a.toNat / b.toNat)),
        (.rem core rd rs1 rs2, if b = 0 then a else a.srem b),
        (.remu core rd rs1 rs2, if b = 0 then a else BitVec.ofNat 32 (a.toNat % b.toNat)),
        (.min core rd rs1 rs2, BitVec.ofInt 32 (min a.toInt b.toInt)),
        (.max core rd rs1 rs2, BitVec.ofInt 32 (max a.toInt b.toInt)),
        (.minu core rd rs1 rs2, BitVec.ofNat 32 (min a.toNat b.toNat)),
        (.maxu core rd rs1 rs2, BitVec.ofNat 32 (max a.toNat b.toNat))] : List (Instr × W32)),
      WritesS p.1 s n rd.toNat p.2

open Sys2Proof.Claims in
/-- Division by zero and the overflowing division give the results of R215. DIV and DIVU by a divisor of 0 write
0xFFFFFFFF, REM and REMU by 0 write the dividend, DIV of -2^31 by -1 writes -2^31 and REM of -2^31 by -1 writes 0, on
every core that can issue; nothing else in the device changes. (R215). -/
def Obligations.DivisionCornersFollowTheRule : Prop :=
  ∀ (s : State) (core : Coord) (rd rs1 rs2 : RegNo), Ready s core →
    let n := coreNo core
    let a := (s.core n).cp.sreg rs1.toNat
    let b := (s.core n).cp.sreg rs2.toNat
    (b = 0 → WritesS (.div core rd rs1 rs2) s n rd.toNat 0xFFFFFFFF
      ∧ WritesS (.divu core rd rs1 rs2) s n rd.toNat 0xFFFFFFFF
      ∧ WritesS (.rem core rd rs1 rs2) s n rd.toNat a ∧ WritesS (.remu core rd rs1 rs2) s n rd.toNat a)
    ∧ (a = 0x80000000 → b = 0xFFFFFFFF →
      WritesS (.div core rd rs1 rs2) s n rd.toNat 0x80000000 ∧ WritesS (.rem core rd rs1 rs2) s n rd.toNat 0)

open Sys2Proof.Claims in
/-- Each immediate and each address instruction writes its result and changes nothing else. For every core that can
issue: ADDI to LUI write s[RD], AADD, ASETLO, ASETHI, AMOV, AZX and AADDI write a[RD], AGETLO and AGETHI write s[RD],
with the values of R216 and Table 6.8; pc and instret advance by one and nothing else in the device changes. (R216, 06
Table 6.8, R192). -/
def Obligations.ImmediateAndAddressInstructionResults : Prop :=
  ∀ (s : State) (core : Coord) (rd rs1 : RegNo) (ad as : BitVec 4) (imm : W16) (sh : BitVec 5), Ready s core →
    let n := coreNo core
    let x := (s.core n).cp.sreg rs1.toNat
    let d := (s.core n).cp.areg ad.toNat
    let a := (s.core n).cp.areg as.toNat
    (∀ p ∈ ([(.addi core rd rs1 imm, x + imm.signExtend 32), (.andi core rd rs1 imm, x &&& imm.zeroExtend 32),
        (.ori core rd rs1 imm, x ||| imm.zeroExtend 32), (.xori core rd rs1 imm, x ^^^ imm.zeroExtend 32),
        (.slli core rd rs1 sh, x <<< sh.toNat), (.srli core rd rs1 sh, x >>> sh.toNat),
        (.srai core rd rs1 sh, x.sshiftRight sh.toNat), (.lui core rd imm, BitVec.ofNat 32 (65536 * imm.toNat)),
        (.agetlo core rd as, a.truncate 32), (.agethi core rd as, BitVec.ofNat 32 (a.toNat / 2 ^ 32))] : List (Instr × W32)),
      WritesS p.1 s n rd.toNat p.2)
    ∧ ∀ p ∈ ([(.aadd core ad as rs1, a + x.signExtend 64),
        (.asetlo core ad rs1, BitVec.ofNat 64 (d.toNat / 2 ^ 32 * 2 ^ 32 + x.toNat)),
        (.asethi core ad rs1, BitVec.ofNat 64 (x.toNat * 2 ^ 32 + d.toNat % 2 ^ 32)), (.amov core ad as, a),
        (.azx core ad rs1, x.zeroExtend 64), (.aaddi core ad as imm, a + imm.signExtend 64)] : List (Instr × W64)),
      WritesA p.1 s n ad.toNat p.2

open Sys2Proof.Claims in
/-- Comparisons, predicate operations and SEL write their results and change nothing else. For every core that can
issue: CMP under the conditions 0 to 5 and CMPI under 0 to 3 write p[PD], PAND, POR, PXOR and PANDN write p[PD], SEL
writes s[RD], with the values of R217 and R218; p0 is not written; pc and instret advance by one and nothing else
changes. CMP under a reserved condition takes the ILLEGAL trap, which the handler takes where it is enabled and not
entered. (R217, R218, R192, R212). -/
def Obligations.ComparisonsAndPredicatesResults : Prop :=
  ∀ (s : State) (core : Coord) (rd rs1 rs2 : RegNo) (pd pa pb : BitVec 3) (imm : W16), Ready s core →
    let n := coreNo core
    let x := (s.core n).cp.sreg rs1.toNat
    let y := (s.core n).cp.sreg rs2.toNat
    let z : W32 := imm.signExtend 32
    let a := (s.core n).cp.preg pa.toNat
    let b := (s.core n).cp.preg pb.toNat
    (∀ p ∈ ([(.cmp core pd rs1 rs2 0, decide (x = y)), (.cmp core pd rs1 rs2 1, decide (x ≠ y)),
        (.cmp core pd rs1 rs2 2, decide (x.toInt < y.toInt)), (.cmp core pd rs1 rs2 3, decide (x.toNat < y.toNat)),
        (.cmp core pd rs1 rs2 4, decide (y.toInt ≤ x.toInt)), (.cmp core pd rs1 rs2 5, decide (y.toNat ≤ x.toNat)),
        (.cmpi core pd rs1 0 imm, decide (x = z)), (.cmpi core pd rs1 1 imm, decide (x ≠ z)),
        (.cmpi core pd rs1 2 imm, decide (x.toInt < z.toInt)), (.cmpi core pd rs1 3 imm, decide (x.toNat < z.toNat)),
        (.pand core pd pa pb, a && b), (.por core pd pa pb, a || b), (.pxor core pd pa pb, a != b),
        (.pandn core pd pa pb, a && !b)] : List (Instr × Bool)),
      WritesP p.1 s n pd.toNat p.2)
    ∧ WritesS (.sel core rd rs1 rs2 pa) s n rd.toNat (if a then x else y)
    ∧ (HandlerOn s n → ∀ cond : BitVec 3, 6 ≤ cond.toNat →
        Handled (.cmp core pd rs1 rs2 cond) s n 1
          (0x28000000 + 0x800000 * pd.toNat + 0x10000 * rs1.toNat + 0x800 * rs2.toNat + cond.toNat) (s.core n).cp.pc.toNat)

open Sys2Proof.Claims in
/-- s0 reads as 0 and p0 as 1, writes to them are discarded, every other register keeps what was written. Reading s0
gives 0 and reading p0 gives 1 of every control processor; writing either leaves it as it was; a write of any other
scalar, address, predicate or descriptor register is what reading it then gives, and leaves the others as they were.
(R192). -/
def Obligations.ConstantRegistersDiscardWrites : Prop :=
  ∀ (c : Cp) (r q : Nat) (v : W32) (w : W64) (b : Bool) (d : DReg), r < 8 → q < 8 →
    c.sreg 0 = 0 ∧ c.preg 0 = true ∧ c.setS 0 v = c ∧ c.setP 0 b = c
    ∧ (∀ i j, i ≠ 0 → (c.setS i v).sreg j = if j = i then v else c.sreg j)
    ∧ (r ≠ 0 → (c.setP r b).preg q = if q = r then b else c.preg q)
    ∧ (∀ i j, (c.setA i w).areg j = if j = i then w else c.areg j)
    ∧ (∀ i j, (c.setD i d).dreg j = if j = i then d else c.dreg j)

open Sys2Proof.Claims in
/-- BR, JAL and JR go to their targets, and a target outside the program store traps with PC_RANGE. For every core
that can issue: BR goes to its own index plus sext(OFF) when p[P] xor N is 1 and to the next index otherwise, JAL also
writes its index plus 1 to s[RD], JR goes to s[RS1]; nothing else changes. A target beyond 4,095 takes the PC_RANGE
trap with the target in tval, and a negative one takes it too (its tval, whose width the spec does not give, is a free
value: log entry 19), where the handler is enabled and not entered. (R219, 06 Table 6.4, R206). -/
def Obligations.BranchesAndJumpsGoToTheirTargets : Prop :=
  ∀ (s : State) (core : Coord) (rd rs1 : RegNo) (p : BitVec 3) (neg : Bool) (off : BitVec 22) (joff : BitVec 21),
    Ready s core →
    let n := coreNo core
    let c := (s.core n).cp
    let tb : Int := c.pc.toNat + off.toInt
    let tj : Int := c.pc.toNat + joff.toInt
    let tr := (c.sreg rs1.toNat).toNat
    (c.preg p.toNat = neg → GoesTo (.br core p neg off) s n (c.pc.toNat + 1))
    ∧ (c.preg p.toNat ≠ neg → 0 ≤ tb → tb ≤ 4095 → GoesTo (.br core p neg off) s n tb.toNat)
    ∧ (0 ≤ tj → tj ≤ 4095 → ∃ t, exec (.jal core rd joff) s = .next t ∧ OnlyCp s t n
        ∧ SReg c (t.core n).cp rd.toNat (BitVec.ofNat 32 (c.pc.toNat + 1))
        ∧ (t.core n).cp = { after c with pc := BitVec.ofNat 12 tj.toNat, s := (t.core n).cp.s })
    ∧ (tr ≤ 4095 → GoesTo (.jr core rs1) s n tr)
    ∧ (HandlerOn s n →
      (c.preg p.toNat ≠ neg → 4095 < tb → Handled (.br core p neg off) s n 2 tb.toNat c.pc.toNat)
      ∧ (4095 < tj → Handled (.jal core rd joff) s n 2 tj.toNat c.pc.toNat)
      ∧ (4095 < tr → Handled (.jr core rs1) s n 2 tr c.pc.toNat)
      ∧ (c.preg p.toNat ≠ neg → tb < 0 → ∃ t, exec (.br core p neg off) s = .next t
          ∧ OnlyCp { s with free := t.free } t n ∧ (t.core n).cp.tcause = 2 ∧ (t.core n).cp.tepc = c.pc
          ∧ (t.core n).cp.inHandler = true ∧ (t.core n).cp.pc = c.tvec.truncate 12)
      ∧ (tj < 0 → ∃ t, exec (.jal core rd joff) s = .next t
          ∧ OnlyCp { s with free := t.free } t n ∧ (t.core n).cp.tcause = 2 ∧ (t.core n).cp.tepc = c.pc
          ∧ (t.core n).cp.inHandler = true ∧ (t.core n).cp.pc = c.tvec.truncate 12 ∧ (t.core n).cp.s = c.s))

namespace Sys2Proof.Claims

/-- The memory key of byte `ea` of the alcove of core `n`. -/
def alcoveKey (n ea : Nat) : Nat := alcoveBase n + ea

/-- No error lies in `len` bytes from key `k`. -/
def Clean (s : State) (k len : Nat) : Prop := ∀ e ∈ s.mem.ecc, e.hits k len = false

/-- No error lies in any stored bit. -/
def NoErrors (s : State) : Prop := s.mem.ecc = []

/-- Every byte of every memory reads as before. -/
def SameBytes (s t : State) : Prop := ∀ k, t.byte k = s.byte k

/-- The two states differ at most in the stored bytes and what is known of them. -/
def OnlyMem (s t : State) : Prop := t = { s with mem := t.mem }

/-- The effective address of a load, a store or a DCREATE (R199). -/
def ea (s : State) (n : Nat) (rs1 : BitVec 4) (imm : W16) : Nat :=
  ((s.core n).cp.areg rs1.toNat + imm.signExtend 64).toNat

/-- The load retires with `s[rd] := v`. Where the word holds no error nothing else in the device changes; an error that
it meets is corrected or reported, and leaves every core and every byte as they are. -/
def LoadsS (i : Instr) (s : State) (n rd k len : Nat) (v : W32) : Prop :=
  ∃ t, exec i s = .next t ∧ (∀ m, m ≠ n → t.core m = s.core m) ∧ (t.core n).seq = (s.core n).seq ∧ SameBytes s t
    ∧ SReg (s.core n).cp (t.core n).cp rd v ∧ (t.core n).cp = { after (s.core n).cp with s := (t.core n).cp.s }
    ∧ (Clean s k len → t = { s with cores := t.cores })

/-- The store retires with the low bytes of `v` at key `k`. Every byte outside is as it was; where no word that the
bytes fall in holds an error, nothing else in the device changes. -/
def Stores (i : Instr) (s : State) (n k len v : Nat) : Prop :=
  ∃ t, exec i s = .next t ∧ (∀ m, m ≠ n → t.core m = s.core m) ∧ t.core n = { s.core n with cp := after (s.core n).cp }
    ∧ (∀ j, t.byte j = if k ≤ j ∧ j < k + len then BitVec.ofNat 8 (v / 256 ^ (j - k)) else s.byte j)
    ∧ (Clean s k len → t = { s with cores := t.cores, mem := t.mem })

end Sys2Proof.Claims

open Sys2Proof.Claims in
/-- Each load retires with the little-endian value at its effective address. For every core that can issue and every
load whose effective address is aligned and whose bytes all lie below 196,608: LDB and LDH write the sign-extended
value to s[RD], LDBU and LDHU the zero-extended one, LDW the 32 bits, and LDA writes 64 bits to a[RD]. pc and instret
advance; every other register of the core, every other core and every byte of memory is as it was. Where no error lies
in the bytes read, nothing else in the device changes. Errors leave the value as stored. (R220, R199, R192). -/
def Obligations.LoadsReadTheAlcove : Prop :=
  ∀ (s : State) (core : Coord) (rd : RegNo) (ad as : BitVec 4) (imm : W16), Ready s core →
    let n := coreNo core
    let e := ea s n as imm
    let k := alcoveKey n e
    (e + 1 ≤ 196608 → LoadsS (.ldb core rd as imm) s n rd.toNat k 1 ((s.byte k).signExtend 32)
      ∧ LoadsS (.ldbu core rd as imm) s n rd.toNat k 1 ((s.byte k).zeroExtend 32))
    ∧ (e + 2 ≤ 196608 → e % 2 = 0 →
      LoadsS (.ldh core rd as imm) s n rd.toNat k 2 ((s.byte (k + 1) ++ s.byte k).signExtend 32)
      ∧ LoadsS (.ldhu core rd as imm) s n rd.toNat k 2 ((s.byte (k + 1) ++ s.byte k).zeroExtend 32))
    ∧ (e + 4 ≤ 196608 → e % 4 = 0 →
      LoadsS (.ldw core rd as imm) s n rd.toNat k 4 (s.byte (k + 3) ++ s.byte (k + 2) ++ s.byte (k + 1) ++ s.byte k))
    ∧ (e + 8 ≤ 196608 → e % 8 = 0 →
      ∃ t, exec (.lda core ad as imm) s = .next t ∧ (∀ m, m ≠ n → t.core m = s.core m)
        ∧ (t.core n).seq = (s.core n).seq ∧ SameBytes s t
        ∧ AReg (s.core n).cp (t.core n).cp ad.toNat (BitVec.ofNat 64 (leNat ((List.range 8).map fun i => s.byte (k + i))))
        ∧ (t.core n).cp = { after (s.core n).cp with a := (t.core n).cp.a }
        ∧ (Clean s k 8 → t = { s with cores := t.cores }))

open Sys2Proof.Claims in
/-- Each store retires with the low bytes of its register at its effective address, and every other byte as it was.
For every core that can issue and every store whose effective address is aligned and whose bytes all lie below
196,608: STB, STH and STW store the low 8, 16 or 32 bits of s[RD] and STA stores a[RD], little-endian, at that address
of the core's own alcove; every byte outside reads as before; pc and instret advance, no other register and no other
core changes. Where no word that the bytes fall in holds an error, nothing else in the device changes. (R220, R199,
R11). -/
def Obligations.StoresWriteTheAlcove : Prop :=
  ∀ (s : State) (core : Coord) (rd : RegNo) (ad as : BitVec 4) (imm : W16), Ready s core →
    let n := coreNo core
    let e := ea s n as imm
    let k := alcoveKey n e
    let v := ((s.core n).cp.sreg rd.toNat).toNat
    (e + 1 ≤ 196608 → Stores (.stb core rd as imm) s n k 1 v)
    ∧ (e + 2 ≤ 196608 → e % 2 = 0 → Stores (.sth core rd as imm) s n k 2 v)
    ∧ (e + 4 ≤ 196608 → e % 4 = 0 → Stores (.stw core rd as imm) s n k 4 v)
    ∧ (e + 8 ≤ 196608 → e % 8 = 0 → Stores (.sta core ad as imm) s n k 8 ((s.core n).cp.areg ad.toNat).toNat)

open Sys2Proof.Claims in
/-- An effective address outside the alcove, or not aligned, takes its trap and no access happens. For every core that
can issue with its handler enabled and not entered: a load or a store, or a DCREATE of 64 bytes, whose bytes do not
all lie below 196,608 takes the ALCOVE_RANGE trap, and one inside whose address is not a multiple of its width the
MISALIGNED trap, with the effective address in tval; no register but those of the trap and no byte of memory changes.
(R199, 06 Table 6.4, R205). -/
def Obligations.AddressTrapsAreTaken : Prop :=
  ∀ (s : State) (core : Coord) (rd : RegNo) (ad as : BitVec 4) (dd : BitVec 6) (imm : W16),
    s.cpReady core = true → HandlerOn s (coreNo core) →
    let n := coreNo core
    let e := ea s n as imm
    let pc := (s.core n).cp.pc.toNat
    ∀ p ∈ ([(.ldb core rd as imm, 1), (.ldbu core rd as imm, 1), (.stb core rd as imm, 1), (.ldh core rd as imm, 2),
        (.ldhu core rd as imm, 2), (.sth core rd as imm, 2), (.ldw core rd as imm, 4), (.stw core rd as imm, 4),
        (.lda core ad as imm, 8), (.sta core ad as imm, 8), (.dcreate core dd as imm, 64)] : List (Instr × Nat)),
      (196608 < e + p.2 → Handled p.1 s n 3 e pc)
      ∧ (e + p.2 ≤ 196608 → e % p.2 ≠ 0 → Handled p.1 s n 4 e pc)

open Sys2Proof.Claims in
/-- A trap with the handler enabled and not entered writes tepc, tcause and tval and continues at the target. For
every state, core, cause, value and resume index: where tvec.EN is 1 and IN_HANDLER is 0, taking a trap sets tepc,
tcause and tval, sets IN_HANDLER and continues at tvec.TARGET; every other register of that core, its sequencer and
every other core are as they were. TRAP resumes at its index plus 1, every other cause at the index of the trapping
instruction. (R206). -/
def Obligations.HandledTrapEntersTheHandler : Prop :=
  ∀ (s : State) (n : Nat) (cause : TrapCause) (tval epc : Nat), HandlerOn s n →
    (∀ m, (s.trapAt n cause tval epc).core m = if m = n then { s.core n with cp := { (s.core n).cp with
          tepc := BitVec.ofNat 12 epc, tcause := BitVec.ofNat 8 cause.code, tval := BitVec.ofNat 64 tval
          inHandler := true, pc := (s.core n).cp.tvec.truncate 12 } } else s.core m)
    ∧ s.trap n cause tval = s.trapAt n cause tval (s.core n).cp.pc.toNat
    ∧ ∀ (core : Coord) (code : W16), s.cpReady core = true → coreNo core = n →
      ∃ t, exec (.trap core code) s = .next t ∧ OnlyCp s t n
        ∧ (t.core n).cp = { (s.core n).cp with
            tepc := BitVec.ofNat 12 ((s.core n).cp.pc.toNat + 1), tcause := 0x0B, tval := code.zeroExtend 64
            inHandler := true, pc := (s.core n).cp.tvec.truncate 12, instret := (s.core n).cp.instret + 1 }

open Sys2Proof.Claims in
/-- A trap without a free handler halts the control processor, records the cause and reports source 0x00. For every
state, core, cause that is not always reported, value and resume index: where tvec.EN is 0 or IN_HANDLER is 1, taking
a trap halts the control processor with tepc, tcause and tval recorded, and what follows is one event of source 0x00
in the core's hall, tagged with the context that holds the hall, with the cause and the coordinates; that event counts
in the source's counter, and no core and no byte of memory changes by it. TRAP of a core that can issue completes so.
(R208). -/
def Obligations.UnhandledTrapHaltsAndReports : Prop :=
  ∀ (s : State) (n : Nat) (cause : TrapCause) (tval epc : Nat), ¬ HandlerOn s n →
    cause ≠ .descCreate → cause ≠ .msgDest →
    let halt := s.onCp n fun c => { c with
      tepc := BitVec.ofNat 12 epc, tcause := BitVec.ofNat 8 cause.code, tval := BitVec.ofNat 64 tval, halted := true }
    let e : Event := { src := 0, hall := coreHall n, ctx := s.holderOf n, inst := cause.code, x := coreX n, y := coreY n }
    let t := s.trapAt n cause tval epc
    t = halt.raise e ∧ t.cores = halt.cores ∧ t.mem = s.mem
    ∧ (∀ h, h = coreHall n → s.inStep h = false → t.reg (Reg.FLT_SRC_COUNT 0 h) = min (s.reg (Reg.FLT_SRC_COUNT 0 h) + 1) 0xFFFFFFFF)
    ∧ (∀ (core : Coord), coreNo core = n → (s.core n).cp.halted = true → s.cpReady core = false)
    ∧ (∀ (core : Coord) (code : W16), s.cpReady core = true → coreNo core = n →
      ∃ u, exec (.trap core code) s = .next u ∧ (u.core n).cp.halted = true ∧ (u.core n).cp.tcause = 0x0B
        ∧ (u.core n).cp.tval = code.zeroExtend 64 ∧ ∀ m, m ≠ n → u.core m = s.core m)

open Sys2Proof.Claims in
/-- TRET returns to tepc and leaves the handler, HALT stops without a fault, an illegal word traps. For every core
that can issue: TRET in a handler sets pc to tepc and clears IN_HANDLER; outside one it takes the ILLEGAL trap; HALT
sets HALTED and nothing else of the core but instret; a word that is not a legal instruction takes the ILLEGAL trap
with the word in tval, where the handler is enabled and not entered. Nothing else in the device changes. The all-zero
word is not legal, the encoding examples of Table 6.15 are. (R207, R211, R212, R213, 06 Table 6.15). -/
def Obligations.ReturnAndHaltOfAControlProcessor : Prop :=
  (∀ (s : State) (core : Coord) (word : W32), s.cpReady core = true →
    let n := coreNo core
    let c := (s.core n).cp
    (c.inHandler = true → ∃ t, exec (.tret core) s = .next t ∧ OnlyCp s t n
      ∧ (t.core n).cp = { c with pc := c.tepc, inHandler := false, instret := c.instret + 1 })
    ∧ (HandlerOn s n → Handled (.tret core) s n 1 0xF4000000 c.pc.toNat)
    ∧ (∃ t, exec (.halt core) s = .next t ∧ OnlyCp s t n
      ∧ (t.core n).cp = { c with halted := true, haltedByHalt := true, instret := c.instret + 1 })
    ∧ (HandlerOn s n → legalWord word.toNat = false → Handled (.illegal core word) s n 1 word.toNat c.pc.toNat))
  ∧ legalWord 0 = false ∧ legalWord 0x08A3FFF4 = true ∧ legalWord 0x417FFFFA = true ∧ legalWord 0x9CC70000 = true
    ∧ legalWord 0x08000000 = true

open Sys2Proof.Claims in
/-- DCREATE, DCOPY and DINV write descriptor registers as R221 and R222 say, and nothing else writes them. For every
core that can issue: DCREATE of an aligned image in the alcove that passes the checks writes the image with its valid
bit set, and one that is refused clears the valid bit of its target and traps with the status code, where the handler
is enabled and not entered; DCOPY copies a valid register with its valid bit and traps with DESC_UNSET on one that is
not valid; DINV clears the valid bit. pc and instret advance, other registers and cores stay, and where the image
holds no error nothing else changes. (R221, R222, R193, R199). -/
def Obligations.DescriptorInstructionsWriteOnlyDescriptors : Prop :=
  ∀ (s : State) (core : Coord) (dd ds : BitVec 6) (ab : BitVec 4) (imm : W16), Ready s core →
    let n := coreNo core
    let c := (s.core n).cp
    let e := ea s n ab imm
    let k := alcoveKey n e
    let img : BitVec 512 := BitVec.ofNat 512 (s.natAt k 64)
    (e + 64 ≤ 196608 → e % 64 = 0 → Clean s k 64 → s.validateDesc n img = none →
      WritesD (.dcreate core dd ab imm) s n dd.toNat ⟨img, true⟩)
    ∧ (e + 64 ≤ 196608 → e % 64 = 0 → Clean s k 64 → HandlerOn s n → ∀ code, s.validateDesc n img = some code →
      ∃ t, exec (.dcreate core dd ab imm) s = .next t ∧ (∀ m, m ≠ n → t.core m = s.core m) ∧ SameBytes s t
        ∧ DRegs c (t.core n).cp dd.toNat { c.dreg dd.toNat with valid := false }
        ∧ (t.core n).cp = { c with
            d := (t.core n).cp.d, tepc := c.pc, tcause := 6, tval := BitVec.ofNat 64 code
            inHandler := true, pc := c.tvec.truncate 12 })
    ∧ ((c.dreg ds.toNat).valid = true → WritesD (.dcopy core dd ds) s n dd.toNat (c.dreg ds.toNat))
    ∧ ((c.dreg ds.toNat).valid = false → HandlerOn s n → Handled (.dcopy core dd ds) s n 7 ds.toNat c.pc.toNat)
    ∧ WritesD (.dinv core dd) s n dd.toNat { c.dreg dd.toNat with valid := false }

open Sys2Proof.Claims in
/-- A control processor that cannot issue an instruction executes none: every instruction leaves the device as it was.
Where the control processor of a core is stopped, halted or blocked, its hall is being handed over or covered by a
reset step, or the coordinates lie outside the grid, each of the instructions of the set, and an illegal word, answers
the state unchanged. That an instruction named for such a core has no effect is the model's reading of a command that
cannot arise; the log says so. (R203, R208, R211, R196). -/
def Obligations.ControlProcessorThatCannotIssueDoesNothing : Prop :=
  ∀ (s : State) (core : Coord) (r1 r2 r3 : RegNo) (a1 a2 : BitVec 4) (p1 p2 p3 : BitVec 3) (c2 : BitVec 2) (d1 d2 : BitVec 6)
    (o22 : BitVec 22) (o21 : BitVec 21) (imm : W16) (csr : BitVec 12) (q : Queue) (b : Bool) (word : W32),
    s.cpReady core = false →
    ∀ i ∈ ([
      .add core r1 r2 r3, .sub core r1 r2 r3, .and core r1 r2 r3, .or core r1 r2 r3, .xor core r1 r2 r3,
      .sll core r1 r2 r3, .srl core r1 r2 r3, .sra core r1 r2 r3, .mul core r1 r2 r3, .mulh core r1 r2 r3,
      .mulhu core r1 r2 r3, .div core r1 r2 r3, .divu core r1 r2 r3, .rem core r1 r2 r3, .remu core r1 r2 r3,
      .min core r1 r2 r3, .max core r1 r2 r3, .minu core r1 r2 r3, .maxu core r1 r2 r3, .addi core r1 r2 imm,
      .andi core r1 r2 imm, .ori core r1 r2 imm, .xori core r1 r2 imm, .slli core r1 r2 r1, .srli core r1 r2 r1,
      .srai core r1 r2 r1, .lui core r1 imm, .aadd core a1 a2 r3, .asetlo core a1 r3, .asethi core a1 r3,
      .agetlo core r1 a2, .agethi core r1 a2, .amov core a1 a2, .azx core a1 r3, .aaddi core a1 a2 imm,
      .cmp core p1 r2 r3 p2, .cmpi core p1 r2 c2 imm, .pand core p1 p2 p3, .por core p1 p2 p3, .pxor core p1 p2 p3,
      .pandn core p1 p2 p3, .sel core r1 r2 r3 p1, .br core p1 b o22, .jal core r1 o21, .jr core r2,
      .ldb core r1 a2 imm, .ldbu core r1 a2 imm, .ldh core r1 a2 imm, .ldhu core r1 a2 imm, .ldw core r1 a2 imm,
      .lda core a1 a2 imm, .stb core r1 a2 imm, .sth core r1 a2 imm, .stw core r1 a2 imm, .sta core a1 a2 imm,
      .dcreate core d1 a2 imm, .dcopy core d1 d2, .dinv core d1, .tload core a1 d2, .tgo core a1 q,
      .tswitch core a1 q r2 b, .twait core a1 r2, .tpatch core a1 r2 a2 p1, .send core r1 a1, .recv core r1 a1 p1,
      .probe core r1 p1, .landwait core r1, .fence core p1, .csrr core a1 csr, .csrw core a1 csr, .trap core imm,
      .tret core, .halt core, .illegal core word] : List Instr), exec i s = .next s

namespace Sys2Proof.Claims

/-- The instruction retires, with what `seq` becomes, and nothing else in the device changes. -/
def RetiresWith (i : Instr) (s : State) (n : Nat) (seq : Seq) : Prop :=
  ∃ t, exec i s = .next t ∧ OnlyCore s t n ∧ t.core n = { cp := after (s.core n).cp, seq := seq }

/-- The instruction blocks, and nothing else in the device changes. -/
def Blocks (i : Instr) (s : State) (n : Nat) (b : Block) : Prop :=
  ∃ t, exec i s = .next t ∧ OnlyCp s t n ∧ (t.core n).cp = { (s.core n).cp with block := b }

/-- The blocked instruction retires, and nothing else in the device changes. -/
def Unblocks (i : Instr) (s : State) (n : Nat) : Prop :=
  ∃ t, exec i s = .next t ∧ OnlyCp s t n ∧ (t.core n).cp = { after (s.core n).cp with block := .none }

/-- The steps that the slots of a core other than `i` hold (R235). -/
def otherSteps (q : Seq) (i : Nat) : Nat := (q.slots.filter fun e => e.1 ≠ i).foldl (fun t e => t + e.2.size) 0

/-- The conditions of FENCE: with its MSG bit the send buffer is empty, with its TBL bit no load and no patch is in
progress; earlier stores are visible at once (R232, log entry 21). -/
def FenceMet (c : Core) (mask : BitVec 3) : Prop :=
  (mask.getLsbD 1 = true → c.cp.sendBuf = [])
  ∧ (mask.getLsbD 2 = true → ∀ e ∈ c.seq.slots, e.2.state ≠ .loading ∧ e.2.patches = [])

end Sys2Proof.Claims

open Sys2Proof.Claims in
/-- TLOAD, TGO, TSWITCH and TPATCH act on their slot or queue, or take the trap of Table 6.11. For every core that can
issue: TLOAD of a slot that is not busy with a valid descriptor makes the slot LOADING where the image has the shape
of R236 and fits the store, and FAILED with TABLE_SHAPE or TABLE_SPACE in tbl_err where not; TGO of a slot LOADING or
READY makes it the pending selection; TSWITCH asks for the binding with its offset, or for none with U = 1; TPATCH of
a READY slot that does not run puts the patch in progress. Each retires and changes nothing else. With the handler
enabled and not entered, a slot in a forbidden state takes TABLE_STATE, an unset descriptor DESC_UNSET, a refused
patch PATCH_INVALID with the code, and an index beyond the table PATCH_INVALID with 0xFFFF. The clauses on TABLE_SHAPE
and TABLE_SPACE are about a slot that no queue waits for. (06 Table 6.11, R224, R225, R226, R228, R235, R236, R262).
-/
def Obligations.StepTableInstructionsActOnSlots : Prop :=
  ∀ (s : State) (core : Coord) (slot : BitVec 4) (ds : BitVec 6) (q : Queue) (rs : RegNo) (u : Bool) (av : BitVec 4)
    (field : BitVec 3), Ready s core →
    let n := coreNo core
    let c := s.core n
    let i := slot.toNat
    let st := (c.seq.slot i).state
    let img := (c.cp.dreg ds.toNat).bits
    let d := Desc.ofBits img
    let v := (c.cp.sreg rs.toNat).toNat
    let pc := c.cp.pc.toNat
    (s.slotBusy n i = false → (c.cp.dreg ds.toNat).valid = true →
      (tableShapeOk d = true → otherSteps c.seq i + d.extent 0 / 4 ≤ 4096 →
        RetiresWith (.tload core slot ds) s n (c.seq.setSlot i { state := .loading, src := img, regs := c.cp.d }))
      ∧ ((∀ k, (c.seq.queue k).run ≠ some i) → tableShapeOk d = false → ∃ t, exec (.tload core slot ds) s = .next t ∧ OnlyCore s t n
          ∧ (t.core n).cp = after c.cp ∧ (t.core n).seq.slot i = { state := .failed }
          ∧ (t.core n).seq.tblErr = 65536 * i + 0x0120)
      ∧ ((∀ k, (c.seq.queue k).run ≠ some i) → tableShapeOk d = true → 4096 < otherSteps c.seq i + d.extent 0 / 4 →
          ∃ t, exec (.tload core slot ds) s = .next t ∧ OnlyCore s t n
          ∧ (t.core n).cp = after c.cp ∧ (t.core n).seq.slot i = { state := .failed }
          ∧ (t.core n).seq.tblErr = 65536 * i + 0x0121))
    ∧ (st = .loading ∨ st = .ready →
      RetiresWith (.tgo core slot q) s n (c.seq.onQueue q fun y => { y with sel := some i }))
    ∧ (u = true ∨ ((st = .loading ∨ st = .ready) ∧ v < s.reg Reg.FTK_BUDGET ∧ (q = .idle → v = 0)) →
      ∃ t, exec (.tswitch core slot q rs u) s = .next t ∧ OnlyCore { s with serial := s.serial + 1 } t n
        ∧ t.core n = { cp := after c.cp, seq := c.seq.onQueue q fun y =>
            { y with pendBind := y.pendBind.filter (·.1 < s.fr.snap) ++ [(s.serial, if u then none else some (i, v))] } })
    ∧ (∀ step, st = .ready → c.seq.runs i = false → (c.seq.slot i).patches = [] → (c.seq.slot i).steps[v]? = some step →
        ∀ new, s.patchStep n field.toNat step.toNat (c.cp.areg av.toNat).toNat = .ok new →
      RetiresWith (.tpatch core slot rs av field) s n (c.seq.setSlot i { c.seq.slot i with
        patches := [⟨v, c.cp.areg av.toNat, field.toNat, pc⟩] }))
    ∧ (HandlerOn s n →
      (s.slotBusy n i = true → Handled (.tload core slot ds) s n 8 i pc)
      ∧ (s.slotBusy n i = false → (c.cp.dreg ds.toNat).valid = false → Handled (.tload core slot ds) s n 7 ds.toNat pc)
      ∧ (st = .empty ∨ st = .failed → Handled (.tgo core slot q) s n 8 i pc)
      ∧ (u = false → st = .empty ∨ st = .failed ∨ s.reg Reg.FTK_BUDGET ≤ v ∨ (q = .idle ∧ v ≠ 0) →
        Handled (.tswitch core slot q rs u) s n 8 i pc)
      ∧ (st ≠ .ready ∨ c.seq.runs i = true → Handled (.tpatch core slot rs av field) s n 8 i pc)
      ∧ (st = .ready → c.seq.runs i = false → (c.seq.slot i).steps.length ≤ v →
        Handled (.tpatch core slot rs av field) s n 9 0xFFFF pc)
      ∧ (∀ step, st = .ready → c.seq.runs i = false → (c.seq.slot i).patches = [] → (c.seq.slot i).steps[v]? = some step →
        ∀ code, s.patchStep n field.toNat step.toNat (c.cp.areg av.toNat).toNat = .error code →
        Handled (.tpatch core slot rs av field) s n 9 code pc))

open Sys2Proof.Claims in
/-- TWAIT, LANDWAIT and FENCE block until their condition holds and retire then. For every core that can issue: TWAIT
retires at once where its counter is at least s[RS] and blocks where not, LANDWAIT blocks, FENCE retires where the
conditions of its mask hold (every one does for mask 0) and blocks where not. A blocked TWAIT or FENCE retires at its
event once the condition holds and changes nothing before; a blocked LANDWAIT whose frame has been armed writes the
low 32 bits of its number to s[S]. Nothing else in the device changes. That earlier stores are visible at once is the
choice of log entry 21. (R227, R232, R233). -/
def Obligations.WaitingInstructionsBlockAndRetire : Prop :=
  (∀ (s : State) (core : Coord) (tc : BitVec 4) (rs : RegNo) (mask : BitVec 3), Ready s core →
    let n := coreNo core
    let c := s.core n
    let v := (c.cp.sreg rs.toNat).toNat
    (v ≤ (c.seq.tokOf tc.toNat).toNat → RetiresWith (.twait core tc rs) s n c.seq)
    ∧ ((c.seq.tokOf tc.toNat).toNat < v → Blocks (.twait core tc rs) s n (.twait tc.toNat v))
    ∧ Blocks (.landwait core rs) s n (.landwait rs.toNat none)
    ∧ (FenceMet c mask → RetiresWith (.fence core mask) s n c.seq)
    ∧ (¬ FenceMet c mask → Blocks (.fence core mask) s n (.fence mask.toNat))
    ∧ RetiresWith (.fence core 0) s n c.seq)
  ∧ (∀ (s : State) (core : Coord),
    let n := coreNo core
    let c := s.core n
    c.cp.pc ≠ 4095 →
    (∀ tc v, c.cp.block = .twait tc v → (v ≤ (c.seq.tokOf tc).toNat → Unblocks (.twaitRetire core) s n)
      ∧ ((c.seq.tokOf tc).toNat < v → exec (.twaitRetire core) s = .next s))
    ∧ (∀ mask : BitVec 3, c.cp.block = .fence mask.toNat → (FenceMet c mask → Unblocks (.fenceResume core) s n)
      ∧ (¬ FenceMet c mask → exec (.fenceResume core) s = .next s))
    ∧ (∀ r, c.cp.block = .landwait r none → exec (.landwaitResume core) s = .next s)
    ∧ (∀ r f, c.cp.block = .landwait r (some f) → ∃ t, exec (.landwaitResume core) s = .next t ∧ OnlyCp s t n
        ∧ SReg c.cp (t.core n).cp r (BitVec.ofNat 32 f)
        ∧ (t.core n).cp = { after c.cp with block := .none, s := (t.core n).cp.s }))

open Sys2Proof.Claims in
/-- CSRR reads the control and status registers, CSRW writes sr_seed and tvec, any other number traps. For every core
that can issue: CSRR of core_id, ctx_id, place, frame, epoch, sr_seed, ovf, fill, the trap registers, the token
counters, tbl_err, cycle and instret writes the value that Table 6.13 lays out to a[A], and CSRR of fcycle, budget,
tbl_state, tbl_run and mq_count writes a value of the state too; CSRW writes a[A] to sr_seed, and its bits 12 to 0 to
tvec. Each retires and changes nothing else. CSRR of a number that is not assigned and CSRW of any other number take
the CSR_ACCESS trap where the handler is enabled and not entered. (R234, 06 Table 6.12, 06 Table 6.13, 06 Table 6.4).
-/
def Obligations.ControlRegistersReadAndWrite : Prop :=
  ∀ (s : State) (core : Coord) (a : BitVec 4) (csr : BitVec 12), Ready s core →
    let n := coreNo core
    let c := s.core n
    let ctx := s.holderOf n
    let h := s.hall (coreHall n)
    (∀ p ∈ ([(0x000, 2 ^ 16 * s.deviceId + 64 * core.x.toNat + core.y.toNat), (0x001, ctx.getD 0),
        (0x002, 2 ^ 24 * posOf core.x.toNat core.y.toNat + 2 ^ 16 * galleryOf core.x.toNat core.y.toNat
          + 2 ^ 8 * hallOf core.x.toNat core.y.toNat + dieOf core.x.toNat core.y.toNat),
        (0x010, h.armedFrame), (0x013, (ctx.map fun x => (s.ctx x).epoch).getD 0), (0x020, c.cp.srSeed.toNat),
        (0x021, if c.seq.ovf then 1 else 0), (0x022, 2 ^ 32 * (c.seq.occupied % 2 ^ 32) + c.seq.streamed % 2 ^ 32),
        (0x030, c.cp.tvec.toNat), (0x031, c.cp.tepc.toNat),
        (0x032, c.cp.tcause.toNat), (0x033, c.cp.tval.toNat),
        (0x034, (if c.cp.halted then 2 else 0) + (if c.cp.inHandler then 1 else 0)), (0x052, c.seq.tblErr),
        (0x070, (s.cycles - h.resetAt) % 2 ^ 64), (0x071, c.cp.instret.toNat)]
        ++ (List.range 16).map fun k => (0x040 + k, (c.seq.tokOf k).toNat) : List (Nat × Nat)),
      WritesA (.csrr core a (BitVec.ofNat 12 p.1)) s n a.toNat (BitVec.ofNat 64 p.2))
    ∧ (∀ r ∈ ([0x011, 0x012, 0x050, 0x051, 0x060] : List (BitVec 12)), ∃ v,
        s.csr n r.toNat = some v ∧ WritesA (.csrr core a r) s n a.toNat (BitVec.ofNat 64 v))
    ∧ (∃ t, exec (.csrw core a 0x020) s = .next t ∧ OnlyCp s t n
        ∧ (t.core n).cp = { after c.cp with srSeed := c.cp.areg a.toNat })
    ∧ (∃ t, exec (.csrw core a 0x030) s = .next t ∧ OnlyCp s t n
        ∧ (t.core n).cp = { after c.cp with tvec := (c.cp.areg a.toNat).truncate 13 })
    ∧ (HandlerOn s n → csr ≠ 0x020 → csr ≠ 0x030 → Handled (.csrw core a csr) s n 5 csr.toNat c.cp.pc.toNat)
    ∧ (HandlerOn s n → csr ∉ [0x000, 0x001, 0x002, 0x010, 0x011, 0x012, 0x013, 0x020, 0x021, 0x022, 0x030, 0x031, 0x032, 0x033,
        0x034, 0x050, 0x051, 0x052, 0x060, 0x070, 0x071] → ¬ (0x040 ≤ csr.toNat ∧ csr.toNat < 0x050) →
      Handled (.csrr core a csr) s n 5 csr.toNat c.cp.pc.toNat)

namespace Sys2Proof.Claims

/-- The bits of a destination word: its device, its core and its queue (R229). -/
def destDevice (w : W32) : Nat := w.toNat / 2 ^ 16
def destX (w : W32) : Nat := (w.toNat / 64) % 128
def destY (w : W32) : Nat := w.toNat % 64

/-- A destination breaks the rule of SEND (R229). -/
def BadDest (s : State) (n : Nat) (w : W32) : Prop :=
  79 < destX w ∨ 49 < destY w
  ∨ (destDevice w = s.deviceId
    ∧ ∀ c, s.holderOf n = some c → (s.hall (hallOf (destX w) (destY w))).holder ≠ some c)

/-- The packet that a SEND sends (R335, R341, R355). -/
def IsMessage (s : State) (n : Nat) (w : W32) (payload : W64) (p : Packet) : Prop :=
  p.type = .msg ∧ p.ddev.toNat = destDevice w ∧ p.dst.x.toNat = destX w ∧ p.dst.y.toNat = destY w
  ∧ p.queue.toNat = (w.toNat / 2 ^ 13) % 8 ∧ p.payload = payload ∧ p.sdev.toNat = s.deviceId ∧ p.src = coordOf n
  ∧ p.job.toNat = (s.ctx ((s.holderOf n).getD 0)).job % 2 ^ 16
  ∧ p.epoch.toNat = (s.ctx ((s.holderOf n).getD 0)).epoch % 2 ^ 16 ∧ p.frame.toNat = s.frame % 2 ^ 16

end Sys2Proof.Claims

open Sys2Proof.Claims in
/-- SEND injects its message with a credit and a free send-buffer entry, asks for credits without, and traps on a bad
destination. For every core that can issue and every destination on its own device that R229 allows: SEND with a
credit in the cache and fewer than 8 entries in the send buffer takes one credit and one entry, puts its message into
the mesh behind the packets in flight and retires; without a credit, and with no request outstanding or due, it sends
one CREDIT_REQ and blocks. SEND_RESUME of a blocked SEND does the same, where no reset step covers the hall. A
destination that breaks R229 takes the MSG_DEST trap with the destination word, where the handler is enabled and not
entered; no core and no byte changes otherwise. (R229, R230, R347, R350, R355). -/
def Obligations.SendTakesACreditAndABufferEntry : Prop :=
  (∀ (s : State) (core : Coord) (ss : RegNo) (a : BitVec 4), Ready s core →
    let n := coreNo core
    let c := (s.core n).cp
    let w := c.sreg ss.toNat
    let pay := c.areg a.toNat
    let k := c.creditsFor w.toNat
    (¬ BadDest s n w → destDevice w = s.deviceId → 0 < k → c.sendBuf.length < 8 →
      ∃ t p, exec (.send core ss a) s = .next t ∧ IsMessage s n w pay p
        ∧ OnlyCp { s with flight := s.flight ++ [p] } t n ∧ (t.core n).cp.creditsFor w.toNat = k - 1
        ∧ (t.core n).cp = { after c with
            block := .none, sendBuf := c.sendBuf ++ [⟨w.toNat, pay, c.pc.toNat⟩], cache := (t.core n).cp.cache })
    ∧ (¬ BadDest s n w → destDevice w = s.deviceId → k = 0 → c.creditReq = none → c.retryDue = false →
      ∃ t p, exec (.send core ss a) s = .next t ∧ p.type = .creditReq ∧ p.dst.x.toNat = destX w ∧ p.dst.y.toNat = destY w
        ∧ OnlyCp { s with flight := s.flight ++ [p] } t n
        ∧ (t.core n).cp = { c with block := .send w.toNat pay false, creditReq := some w.toNat })
    ∧ (BadDest s n w → HandlerOn s n →
      ∃ t, exec (.send core ss a) s = .next t ∧ (∀ m, m ≠ n → t.core m = s.core m) ∧ SameBytes s t
        ∧ t.core n = { s.core n with cp := { c with
            tepc := c.pc, tcause := 0x0A, tval := w.zeroExtend 64, inHandler := true, pc := c.tvec.truncate 12 } }))
  ∧ (∀ (s : State) (core : Coord) (w : W32) (pay : W64) (b : Bool),
    let n := coreNo core
    let c := (s.core n).cp
    c.block = .send w.toNat pay b → c.pc ≠ 4095 → s.inStep (coreHall n) = false → destDevice w = s.deviceId →
    (0 < c.creditsFor w.toNat → c.sendBuf.length < 8 →
      ∃ t p, exec (.sendResume core) s = .next t ∧ IsMessage s n w pay p
        ∧ OnlyCp { s with flight := s.flight ++ [p] } t n
        ∧ (t.core n).cp.creditsFor w.toNat = c.creditsFor w.toNat - 1
        ∧ (t.core n).cp = { after c with
            block := .none, sendBuf := c.sendBuf ++ [⟨w.toNat, pay, c.pc.toNat⟩], cache := (t.core n).cp.cache })
    ∧ (0 < c.creditsFor w.toNat → 8 ≤ c.sendBuf.length → exec (.sendResume core) s = .next s))

open Sys2Proof.Claims in
/-- RECV removes the oldest entry of its queue, blocks on an empty one, and PROBE counts the entries. For every core
that can issue: RECV on a queue with an entry removes the oldest, writes its payload to a[A] and its sender's word,
with QUEUE set to the queue, to s[S], and retires; on an empty queue it blocks, and RECV_RESUME completes it once an
entry is present and changes nothing before. PROBE writes the number of entries to s[S] and removes nothing. The other
queues and everything else in the device are as they were. (R231). -/
def Obligations.ReceiveTakesTheOldestEntry : Prop :=
  (∀ (s : State) (core : Coord) (sd : RegNo) (a : BitVec 4) (queue : BitVec 3), Ready s core →
    let n := coreNo core
    let c := (s.core n).cp
    let q := queue.toNat
    (∀ pay peer rest, (c.rxq q).entries = (pay, peer) :: rest →
      ∃ t, exec (.recv core sd a queue) s = .next t ∧ OnlyCp s t n
        ∧ SReg c (t.core n).cp sd.toNat (BitVec.ofNat 32 (peer + 2 ^ 13 * q)) ∧ AReg c (t.core n).cp a.toNat pay
        ∧ (∀ j, (t.core n).cp.rxq j = if j = q then { c.rxq q with entries := rest } else c.rxq j)
        ∧ (t.core n).cp = { after c with
            block := .none, s := (t.core n).cp.s, a := (t.core n).cp.a, rx := (t.core n).cp.rx })
    ∧ ((c.rxq q).entries = [] → Blocks (.recv core sd a queue) s n (.recv sd.toNat a.toNat q))
    ∧ WritesS (.probe core sd queue) s n sd.toNat (BitVec.ofNat 32 (c.rxq q).entries.length))
  ∧ (∀ (s : State) (core : Coord) (sd a q : Nat),
    let n := coreNo core
    let c := (s.core n).cp
    c.block = .recv sd a q → c.pc ≠ 4095 →
    ((c.rxq q).entries = [] → exec (.recvResume core) s = .next s)
    ∧ (∀ pay peer rest, (c.rxq q).entries = (pay, peer) :: rest →
      ∃ t, exec (.recvResume core) s = .next t ∧ OnlyCp s t n
        ∧ SReg c (t.core n).cp sd (BitVec.ofNat 32 (peer + 2 ^ 13 * q)) ∧ AReg c (t.core n).cp a pay
        ∧ (∀ j, (t.core n).cp.rxq j = if j = q then { c.rxq q with entries := rest } else c.rxq j)
        ∧ (t.core n).cp = { after c with
            block := .none, s := (t.core n).cp.s, a := (t.core n).cp.a, rx := (t.core n).cp.rx }))

namespace Sys2Proof.Claims

/-- A step stands at the front of a queue of a core, where the queue may dispatch it. -/
def AtFront (s : State) (n : Nat) (q : Queue) (st : Nat) : Prop := ∃ slot, (s.core n).seq.front q = some (slot, st)

/-- Only the sequencer of core `n` changes, to what the steps after `seq` that can be dispatched make of it (R247). -/
def Sequences (i : Instr) (s : State) (n : Nat) (seq : Seq) : Prop :=
  ∃ t, exec i s = .next t ∧ OnlyCore s t n ∧ t.core n = { s.core n with seq := seq.dispatch }

/-- Dispatch fills the queues of the units and moves on in the tables; every token counter keeps its value. -/
def TokensAre (q : Seq) (f : Nat → W32) : Prop := ∀ c, q.tokOf c = f c

/-- What the wait of a step takes from a counter when it consumes (R252). -/
def taken (st c : Nat) : Nat := if stConsume st = true ∧ bit (stMask st) c = true then stWaitN st else 0

end Sys2Proof.Claims

open Sys2Proof.Claims in
/-- LOOP, ENDLOOP, BRANCH and FRAME_END marks move their queue on, and SYNC WAIT consumes and releases tokens. For
every core and queue with the mark at its front: LOOP opens a loop with COUNT and pass 0; ENDLOOP begins the next pass
at the first step of the body or closes the loop after the last pass; BRANCH with a pending selection whose slot is
READY consumes it and goes on at step 0 of that slot, and without a selection changes nothing; FRAME_END ends dispatch
of its queue, and on the main queue stops the idle-fill queue; SYNC WAIT, once its wait holds, subtracts N from each
counter that it names where it consumes, adds 1 to its release counter where it releases, and goes on; where an
iteration or a step preferred by R253 could consume from the same counter, it waits on. Each changes only the
sequencer of its core, and dispatch of the next steps follows. (R250, R252, R253, R258, R259, R261). -/
def Obligations.MarksMoveTheirQueueOn : Prop :=
  ∀ (s : State) (core : Coord) (q : Queue) (st : Nat), AtFront s (coreNo core) q st →
    let n := coreNo core
    let sq := (s.core n).seq
    let y := sq.queue q
    (stIsLoop st = true → Sequences (.loop core q) s n
      (sq.setQueue q { y with pos := y.pos + 1, loops := ⟨y.pos + 1, stCount st, 0⟩ :: y.loops }))
    ∧ (stIsEndloop st = true → ∀ f rest, y.loops = f :: rest → f.pass < f.count → Sequences (.endloop core q) s n
      (sq.setQueue q { y with pos := f.body, loops := { f with pass := f.pass + 1 } :: rest }))
    ∧ (stIsEndloop st = true → ∀ f rest, y.loops = f :: rest → f.count ≤ f.pass → Sequences (.endloop core q) s n
      (sq.setQueue q { y with pos := y.pos + 1, loops := rest }))
    ∧ (stIsBranch st = true →
      (∀ slot, y.sel = some slot → (sq.slot slot).state = .ready → (sq.slot slot).patches = [] →
        Sequences (.branch core q) s n (sq.setQueue q { y with sel := none, run := some slot, pos := 0, loops := [] }))
      ∧ (y.sel = none → exec (.branch core q) s = .next s))
    ∧ (stIsFrameEnd st = true → ∃ t, exec (.frameEnd core q) s = .next t ∧ OnlyCore s t n
      ∧ (t.core n).cp = (s.core n).cp ∧ (t.core n).seq.tok = sq.tok
      ∧ (q = .main → (t.core n).seq.main.endDispatched = true ∧ (t.core n).seq.main.pos = y.pos + 1
          ∧ (t.core n).seq.idle.stopped = true
          ∧ ∀ u, ∀ e ∈ ((t.core n).seq.unit u).waiting, e.queue = .main))
    ∧ (stIsWait st = true → sq.waitHolds st = true → sq.outranked (syncRank q) st = false →
      ∃ t, exec (.syncWait core q) s = .next t ∧ OnlyCore s t n ∧ (t.core n).cp = (s.core n).cp
      ∧ TokensAre (t.core n).seq fun c =>
          let left := if c < 16 then sq.tokOf c - BitVec.ofNat 32 (taken st c) else sq.tokOf c
          if stRelEn st = true ∧ c = stRelTc st then (if left = 0xFFFFFFFF then left else left + 1) else left)
    ∧ (stIsWait st = true → sq.waitHolds st = false ∨ sq.outranked (syncRank q) st = true → exec (.syncWait core q) s = .next s)

open Sys2Proof.Claims in
/-- FRAME_END is reached only when the conditions of R258 hold, and a core that was late starts its table then. For
every core: where the main queue runs a table whose FRAME_END has been dispatched, no main-queue entry waits or runs
in any unit, no iteration of either queue is in progress, no signal awaits its ACK and the array is idle,
FRAME_END_REACHED ends the run of the table; where one of these fails it changes nothing. Where the core's queues have
been armed meanwhile, the token counters read 0 from then on. Nothing outside the sequencer of the core changes where
no due table waits. (R258, R256, R227). -/
def Obligations.FrameEndIsReachedWhenAllWorkIsDone : Prop :=
  ∀ (s : State) (core : Coord),
    let n := coreNo core
    let q := (s.core n).seq
    let done := q.main.endDispatched = true ∧ q.main.run.isSome = true ∧ q.signals = [] ∧ q.ramp = .idle
      ∧ ∀ u, (q.unit u).cur = none ∧ (q.unit u).running = none ∧ (q.unit u).overlap = none
        ∧ ∀ e ∈ (q.unit u).waiting, e.queue = .idle
    (¬ done → exec (.frameEndReached core) s = .next s)
    ∧ (done → q.main.armed = false → ∃ t, exec (.frameEndReached core) s = .next t ∧ OnlyCore s t n
        ∧ t.core n = { s.core n with seq := { q with
            main := { q.main with run := none, endDispatched := false, loops := [] }, reachedEnd := true, progress := true } })
    ∧ (done → q.main.armed = true → q.main.due = false → q.idle.due = false →
        ∃ t, exec (.frameEndReached core) s = .next t ∧ OnlyCore s t n ∧ (t.core n).cp = (s.core n).cp
          ∧ (t.core n).seq.main.run = none ∧ TokensAre (t.core n).seq fun _ => 0)

namespace Sys2Proof.Claims

/-- An address in a table shadow, on the hall of core `n`, of the context that holds the hall (R263). -/
def InShadow (s : State) (n a : Nat) : Prop :=
  ∃ c, s.holderOf n = some c ∧ ∃ r ∈ (s.ctx c).reserves, r.hall = coreHall n
    ∧ 65536 * r.shadow ≤ a ∧ a < 65536 * (r.shadow + 250)

/-- The sequencer of core `n` becomes what the steps after `seq` that can be dispatched make of it; beyond it only bytes of the
table shadow may change. -/
def TableChanges (s t : State) (n : Nat) (seq : Seq) : Prop :=
  OnlyCore { s with mem := t.mem, free := t.free } t n ∧ t.core n = { s.core n with seq := seq.dispatch }
  ∧ ∀ a, ¬ InShadow s n a → t.byte a = s.byte a

end Sys2Proof.Claims

open Sys2Proof.Claims in
/-- A table that validates makes its slot READY with its steps, one that does not FAILED with the code, and a patch
replaces its field. For every core and slot in state LOADING whose image lies in the core's alcove without errors:
TLOAD_COMPLETE makes the slot READY with the steps of the image where every check passes, and FAILED with the slot and
the first code in tbl_err where one does not and no queue waits for the slot. A slot that is not LOADING is left as it
was. TPATCH_COMPLETE replaces the field of the oldest patch in its step and leaves every other step as it was. Only
the sequencer of the core changes, and bytes of the table shadows of the context that holds its hall, for which the
manual lays no values down (log entry 47). (R236, R237, R238, R262, R263, R688). -/
def Obligations.TablesLoadAndPatchesTakeEffect : Prop :=
  ∀ (s : State) (core : Coord) (slot : BitVec 4),
    let n := coreNo core
    let i := slot.toNat
    let q := (s.core n).seq
    let x := q.slot i
    let d := Desc.ofBits x.src
    let count := d.extent 0 / 4
    let key := alcoveBase n + d.base
    let steps := (List.range count).map fun j => s.natAt (key + 16 * j) 16
    let get (r : Nat) : Option Desc :=
      if (mapGet {} x.regs r).valid then some (Desc.ofBits (mapGet {} x.regs r).bits) else none
    (x.state ≠ .loading → exec (.tloadComplete core slot) s = .next s)
    ∧ (x.state = .loading → d.space = 0 → NoErrors s → tableCheck n get count 0 0 steps = none →
        ∃ t, exec (.tloadComplete core slot) s = .next t
          ∧ TableChanges s t n (q.setSlot i { state := .ready, steps := steps.map (BitVec.ofNat 128) }))
    ∧ (∀ code, x.state = .loading → d.space = 0 → NoErrors s → tableCheck n get count 0 0 steps = some code →
        (∀ k, (q.queue k).run ≠ some i) →
        ∃ t, exec (.tloadComplete core slot) s = .next t ∧ OnlyCore s t n
          ∧ t.core n = { s.core n with seq := { q.setSlot i { state := .failed } with tblErr := 65536 * i + code } })
    ∧ (x.patches = [] → exec (.tpatchComplete core slot) s = .next s)
    ∧ (∀ p rest old hi lo, x.patches = p :: rest → x.steps[p.step]? = some old → patchBits p.field old.toNat = some (hi, lo) →
        ∃ t, exec (.tpatchComplete core slot) s = .next t ∧ TableChanges s t n (q.setSlot i { x with
          patches := rest, steps := x.steps.set p.step (BitVec.ofNat 128 (setBits old.toNat hi lo p.value.toNat)) }))

open Sys2Proof.Claims in
/-- A gallery start starts the idle-fill tables and the main tables of offset 0, a main queue start the delayed ones.
For every gallery of a hall whose landing is done, that a context holds, that no reset step covers and that has not
started in this frame: GALLERY_START marks the gallery started, and for each of its 25 cores with an armed main queue
bound with offset 0 to a READY slot, and no running table, that slot runs. MAIN_QUEUE_START of a core of a started
gallery starts its armed main queue so, whatever the offset. A gallery that has started is left as it was. (R63, R257,
R26). -/
def Obligations.GalleryStartsStartBoundTables : Prop :=
  (∀ (s : State) (g : BitVec 8), g.toNat < 160 →
    let h := g.toNat / 10
    let j := g.toNat % 10
    ((s.hall h).started.getLsbD j = true → exec (.galleryStart g) s = .next s)
    ∧ (s.fr.ticked = true → (s.hall h).stage = .done → s.inStep h = false → (s.hall h).started.getLsbD j = false →
      (s.hall h).holder.isSome = true → ∃ t, exec (.galleryStart g) s = .next t
        ∧ (t.hall h).started = (s.hall h).started ||| (1#10 <<< j)
        ∧ ∀ p slot, p < 25 → (∀ p' < 25, ∀ sl o, (s.core (coreAt g.toNat p')).seq.main.bind = some (sl, o) →
              ((s.core (coreAt g.toNat p')).seq.slot sl).state = .ready)
            → (∀ p' < 25, (s.core (coreAt g.toNat p')).seq.idle.armed = false)
            → (s.core (coreAt g.toNat p)).seq.main.bind = some (slot, 0)
            → (s.core (coreAt g.toNat p)).seq.main.armed = true → (s.core (coreAt g.toNat p)).seq.main.run = none
            → (t.core (coreAt g.toNat p)).seq = (((s.core (coreAt g.toNat p)).seq.setQueue .main
                ((s.core (coreAt g.toNat p)).seq.main.enter slot)).dispatch)))
  ∧ (∀ (s : State) (core : Coord) (slot off : Nat),
    let n := coreNo core
    let q := (s.core n).seq
    (s.hall (coreHall n)).started.getLsbD (coreGallery n % 10) = true → q.main.armed = true → q.main.run = none →
    q.main.bind = some (slot, off) → (q.slot slot).state = .ready →
      ∃ t, exec (.mainQueueStart core) s = .next t ∧ OnlyCore s t n
        ∧ t.core n = { s.core n with seq := (q.setQueue .main (q.main.enter slot)).dispatch })

namespace Sys2Proof.Claims

/-- A unit may start an iteration of the step of a queue (R248, R252, R253, R260): `r` is the step as it was sampled or will be,
and `s0` the state in which the iteration is computed, with the step out of its queue and its tokens consumed. -/
def Begins (s : State) (n : Nat) (u : UnitName) (q : Queue) (op : Nat) (s0 : State) (r : Run) : Prop :=
  let sq := (s.core n).seq
  let x := sq.unit u
  sq.mayStart u q = true ∧ sq.waitHolds r.st = true ∧ stOp r.st = op ∧ sq.outranked (unitRank q u) r.st = false
  ∧ ((x.of q = some r ∧ s0 = s.onSeq n (·.consume r.st))
    ∨ (x.of q = none ∧ ∃ e, x.waiting.find? (fun e => decide (e.queue = q)) = some e ∧ s.issueCheck n e.step.toNat = none
      ∧ r = s.sample n e
      ∧ s0 = (s.onSeq n fun y => y.setUnit u { y.unit u with waiting := (y.unit u).waiting.erase e }).onSeq n (·.consume r.st)))

/-- Every token counter of a core is as before but for what the wait of a step takes. -/
def Consumed (s t : State) (n st : Nat) : Prop :=
  ∀ c, c < 16 → (t.core n).seq.tokOf c = (s.core n).seq.tokOf c - BitVec.ofNat 32 (taken st c)

/-- An iteration is in progress in a unit for a queue. -/
def InProgress (t : State) (n : Nat) (u : UnitName) (q : Queue) (r : Run) : Prop :=
  ((t.core n).seq.unit u).of q = some r ∧ r.busy = true

/-- A step samples the registers that it names, the seed, the frame and the epoch when it issues (R248). -/
def Sampled (s : State) (n : Nat) (e : Entry) (r : Run) : Prop :=
  r.entry = e ∧ r.iter = 0 ∧ r.d0 = ((s.core n).cp.dreg (stReg e.step.toNat 0)).bits
  ∧ r.d1 = ((s.core n).cp.dreg (stReg e.step.toNat 1)).bits ∧ r.seed = (s.core n).cp.srSeed ∧ r.frame = s.frame
  ∧ r.epoch = ((s.holderOf n).map fun c => (s.ctx c).epoch).getD 0

end Sys2Proof.Claims

open Sys2Proof.Claims in
/-- Each VECTOR opcode starts an iteration of its step, whose results are those of its opcode and become visible
later. For every core and queue whose vector unit may start an iteration of a step with the opcode, and with no error
in memory: each of the 37 VECTOR commands consumes the tokens of the wait and puts the iteration in progress with the
values that the opcode gives on the sampled descriptors; no byte of memory and nothing but the sequencer of the core
changes (but for the model's count of free values, log entry 3). Where the step at the head has another opcode, or its
wait does not hold, or no step waits, nothing changes. (R244, R248, R252, R260, 07 Table 7.4). -/
def Obligations.VectorStepsStartTheirIterations : Prop :=
  ∀ (s : State) (core : Coord) (q : Queue), NoErrors s →
    let n := coreNo core
    let x := (s.core n).seq.vector
    ∀ p ∈ ([
        (.vectorAdd core q, 0x01), (.vectorSub core q, 0x02), (.vectorMul core q, 0x03), (.vectorMax core q, 0x04),
        (.vectorMin core q, 0x05), (.vectorFma core q, 0x06), (.scale core q, 0x07), (.cvt core q, 0x08),
        (.fill core q, 0x09), (.rsinit core q, 0x0A), (.exp core q, 0x10), (.rsqrt core q, 0x11),
        (.recip core q, 0x12), (.relu core q, 0x18), (.lrelu core q, 0x19), (.sigmoid core q, 0x1A),
        (.tanh core q, 0x1B), (.softplus core q, 0x1C), (.elu core q, 0x1D), (.sqrelu core q, 0x1E),
        (.gelu core q, 0x1F), (.silu core q, 0x20), (.doutRelu core q, 0x28), (.doutLrelu core q, 0x29),
        (.doutSigmoid core q, 0x2A), (.doutTanh core q, 0x2B), (.doutSoftplus core q, 0x2C),
        (.doutElu core q, 0x2D), (.doutSqrelu core q, 0x2E), (.doutExp core q, 0x2F), (.rownorm core q, 0x30),
        (.segsum core q, 0x31), (.iadd core q, 0x38), (.isub core q, 0x39), (.imul core q, 0x3A),
        (.imax core q, 0x3B), (.imin core q, 0x3C)] : List (Instr × Nat)),
      (∀ s0 r0, Begins s n .vector q p.2 s0 r0 →
        ∃ t r, exec p.1 s = .next t ∧ InProgress t n .vector q r
          ∧ r = { r0 with busy := true, writes := r.writes, overflow := r.overflow }
          ∧ r.writes = (if p.2 = 0x31 then s0.segsumValues n r0 [] else s0.vectorValues n r0 []).writes
          ∧ OnlyCore { s with free := t.free } t n ∧ (t.core n).cp = (s.core n).cp ∧ Consumed s t n r0.st)
      ∧ ((x.candidate q = none ∨ (∃ st, x.candidate q = some st ∧ (stOp st.toNat ≠ p.2 ∨ (s.core n).seq.waitHolds st.toNat = false)))
        → exec p.1 s = .next s)

open Sys2Proof.Claims in
/-- A step samples its descriptors when it issues and is refused with its code where a check fails. For every core,
queue and unit queue entry: what an issue samples is the contents of the registers that the step names, the seed, the
frame number and the epoch, at that moment. Where an entry waits first in the vector, mover or mesh queue of a unit
that may start it and a check at issue fails, the step does not start: it leaves the queue, its queue stops,
HAL_SEQ_FAULT holds the refusal with the code and HAL_SEQ_FAULT_COUNT has counted it, no byte of memory changes and no
token is consumed or released. (R239, R248, R223, R267). -/
def Obligations.IssueSamplesDescriptorsAndRefusesUnsetOnes : Prop :=
  (∀ (s : State) (n : Nat) (e : Entry), Sampled s n e (s.sample n e))
  ∧ (∀ (s : State) (n : Nat) (e : Entry), (stUses e.step.toNat).any (fun u => ! ((s.core n).cp.dreg u.reg).valid) = true →
      s.issueCheck n e.step.toNat = some 0x0126)
  ∧ (∀ (s : State) (core : Coord) (q : Queue) (e : Entry) (code : Nat), code < 2 ^ 16 → core.x.toNat < 80 → core.y.toNat < 50 →
    let n := coreNo core
    let sq := (s.core n).seq
    let h := coreHall n
    e.queue = q → e.slot < 16 → e.idx < 4096 → s.inStep h = false → s.issueCheck n e.step.toNat = some code →
    sq.waitHolds e.step.toNat = true →
    (∀ u, sq.outranked (unitRank q u) e.step.toNat = false) →
    ∀ p ∈ ([(.fill core q, .vector, 0x09), (.moverCopy core q, .mover, 0x01), (.meshPut core q, .mesh, 0x01)]
        : List (Instr × UnitName × Nat)),
      stOp e.step.toNat = p.2.2 → sq.mayStart p.2.1 q = true → (sq.unit p.2.1).of q = none →
      (sq.unit p.2.1).waiting.find? (fun e => decide (e.queue = q)) = some e →
      ∃ t, exec p.1 s = .next t ∧ ((t.core n).seq.unit p.2.1).of q = none ∧ ((t.core n).seq.queue q).stopped = true
        ∧ SameBytes s t ∧ (∀ c, (t.core n).seq.tokOf c = sq.tokOf c)
        ∧ t.reg (Reg.HAL_SEQ_FAULT h) = 2 ^ 63 + (if q = .idle then 2 ^ 62 else 0) + 2 ^ 58 * e.slot + 2 ^ 46 * e.idx
            + 2 ^ 39 * core.x.toNat + 2 ^ 33 * core.y.toNat + code
        ∧ t.reg (Reg.HAL_SEQ_FAULT_COUNT h) = min (s.reg (Reg.HAL_SEQ_FAULT_COUNT h) + 1) 0xFFFFFFFF)

namespace Sys2Proof.Claims

/-- The rows of an operand of a GATHER or SCATTER iteration, one for each index below `count`, lie in an alcove. -/
def RowsInAlcove (n : Nat) (d : Desc) (r : Run) (exts : List Nat) (count : Nat) : Prop :=
  ∀ i, i < count → ∀ p ∈ d.ranges n ((coords exts).map fun c => d.permuted (fullCoord (d.walk (stRank r.st) r.ix) (c ++ [i]))),
    alcoveBase n ≤ p.1

/-- The index list of an iteration lies in an alcove, and every index of it is in range by the rules of Table 8.5. -/
def IndicesGood (s : State) (n : Nat) (r : Run) (indexed : Desc) : Prop :=
  (∀ p ∈ (r.desc 2).ranges n ((List.range ((r.desc 2).extent 0)).map fun j =>
      (r.desc 2).permuted (fullCoord ((r.desc 2).walk 1 r.ix) [j])), alcoveBase n ≤ p.1)
  ∧ ∀ raw ∈ s.indexList n r, resolveIdx indexed.idxMode (indexed.opExt (stRank r.st - 1)) raw ≠ .bad

/-- The source of a COPY iteration lies in an alcove. -/
def CopySourceInAlcove (n : Nat) (r : Run) : Prop :=
  ∀ p ∈ (r.desc 1).ranges n (((coords ((List.range (stRank r.st)).map (r.desc 0).extent)).map fun c =>
      (r.desc 1).permuted (fullCoord ((r.desc 1).walk (stRank r.st) r.ix) c)).filter fun c => ((r.desc 1).bitAt c).isSome),
    alcoveBase n ≤ p.1

/-- The packet of a tile that a MESH step sends (R354, R355). -/
def IsTile (s : State) (n : Nat) (r : Run) (p : Packet) : Prop :=
  p.dst.x.toNat = stX r.st ∧ p.dst.y.toNat = stY r.st ∧ p.dd.toNat = stReg r.st 1 ∧ p.rtc.toNat = stRtc r.st
  ∧ p.epoch.toNat = r.epoch % 2 ^ 16 ∧ p.ext0.toNat = (r.desc 0).opExt 0 ∧ p.ext1.toNat = (r.desc 0).opExt 1
  ∧ p.tile.toNat = nextTile (s.core n).seq.tileNext
  ∧ p.data.length = ((r.desc 0).opExt 0 * (r.desc 0).opExt 1 * (r.desc 0).bitsPer + 7) / 8

end Sys2Proof.Claims

open Sys2Proof.Claims in
/-- COPY, GATHER and SCATTER read their sources, PUT and PUT_ADD send their tile, when an iteration starts. For every
core and queue whose mover may start an iteration, with no error in memory: MOVER_COPY of a source in an alcove, and
GATHER and SCATTER of rows and an index list in an alcove with every index good, ANSWER A NEXT STATE in which the
iteration is in progress with the values that will be written when it completes; wherever the operands lie, MOVER_COPY
puts the iteration in progress where its reads pass their checks and abandons the step where one fails. For every core
and queue whose mesh port may start an iteration, and with no error in memory: MESH_PUT and MESH_PUT_ADD to a core of
the device put their tile into the mesh with the step's coordinates, register, counter, extents and epoch, under the
next tile number, and wait for its ACK. Tokens are consumed; no byte of memory changes where the iteration starts.
(R278, R288, R291, R296, R354, R355, R252, R253). -/
def Obligations.MoverAndMeshStepsStartTheirIterations : Prop :=
  ∀ (s : State) (core : Coord) (q : Queue),
    let n := coreNo core
    (∀ s0 r0, NoErrors s → Begins s n .mover q 1 s0 r0 → CopySourceInAlcove n r0 →
      ∃ (t : State) (w : Written), exec (.moverCopy core q) s = .next t
        ∧ InProgress t n .mover q { r0 with busy := true, writes := w.writes, overflow := w.overflow }
        ∧ (s0.copyIter n r0).2 = some { r0 with writes := w.writes, overflow := w.overflow }
        ∧ SameBytes s t ∧ Consumed s t n r0.st ∧ OnlyCore { s with free := t.free, mem := t.mem } t n)
    ∧ (∀ s0 r0, NoErrors s → Begins s n .mover q 2 s0 r0 → IndicesGood s n r0 (r0.desc 1) →
        RowsInAlcove n (r0.desc 1) r0 ((List.range (stRank r0.st - 1)).map (r0.desc 1).opExt) ((r0.desc 1).opExt (stRank r0.st - 1)) →
      ∃ (t : State) (w : Written), exec (.gather core q) s = .next t
        ∧ InProgress t n .mover q { r0 with busy := true, writes := w.writes, overflow := w.overflow }
        ∧ SameBytes s t ∧ Consumed s t n r0.st ∧ OnlyCore { s with free := t.free, mem := t.mem, regs := t.regs } t n)
    ∧ (∀ s0 r0, NoErrors s → Begins s n .mover q 3 s0 r0 → IndicesGood s n r0 (r0.desc 0) →
        RowsInAlcove n (r0.desc 1) r0 ((List.range (stRank r0.st - 1)).map (r0.desc 0).opExt) ((r0.desc 2).extent 0) →
      ∃ (t : State) (w : Written) (rows : Nat), exec (.scatter core q) s = .next t
        ∧ InProgress t n .mover q { r0 with busy := true, writes := w.writes, overflow := w.overflow, rows := rows }
        ∧ SameBytes s t ∧ Consumed s t n r0.st ∧ OnlyCore { s with free := t.free, mem := t.mem, regs := t.regs } t n)
    ∧ (∀ s0 r0 s1 r, Begins s n .mover q 1 s0 r0 → s0.copyIter n r0 = (s1, some r) →
      ∃ t, exec (.moverCopy core q) s = .next t ∧ t.mem = s1.mem ∧ t.regs = s1.regs
        ∧ InProgress t n .mover q { r with busy := true } ∧ SameBytes s t ∧ Consumed s t n r0.st)
    ∧ (∀ s0 r0 s1, Begins s n .mover q 1 s0 r0 → s0.copyIter n r0 = (s1, none) →
      ∃ t, exec (.moverCopy core q) s = .next t ∧ t.mem = s1.mem ∧ t.regs = s1.regs
        ∧ ((t.core n).seq.unit .mover).of q = none)
    ∧ (∀ s0 r0, NoErrors s → Begins s n .mesh q 1 s0 r0 → stDevice r0.st = s.deviceId →
      ∃ t p, exec (.meshPut core q) s = .next t
        ∧ OnlyCore { s with flight := s.flight ++ [p] } t n ∧ (t.core n).cp = (s.core n).cp ∧ Consumed s t n r0.st
        ∧ InProgress t n .mesh q { r0 with busy := true, tile := nextTile (s.core n).seq.tileNext, retry := false }
        ∧ p.type = .put ∧ IsTile s n r0 p)
    ∧ (∀ s0 r0, NoErrors s → Begins s n .mesh q 2 s0 r0 → stDevice r0.st = s.deviceId →
      ∃ t p, exec (.meshPutAdd core q) s = .next t
        ∧ OnlyCore { s with flight := s.flight ++ [p] } t n ∧ (t.core n).cp = (s.core n).cp ∧ Consumed s t n r0.st
        ∧ InProgress t n .mesh q { r0 with busy := true, tile := nextTile (s.core n).seq.tileNext, retry := false }
        ∧ p.type = .putAdd ∧ IsTile s n r0 p)

open Sys2Proof.Claims in
/-- MATMUL issues with a ramp-up from idle arrays, joins a running schedule, and waits during a ramp-down. For every
core and queue, with no error in memory: with the ramp idle and an iteration of the MATMUL at the head that may start,
ARRAY_MATMUL puts it in progress with the values of the step and its row counts, and the arrays are active, in the
ramp of FTK_RAMP and at the duty of PWR_STATUS; while an iteration of the same queue is in progress and none has
joined it, the next iteration of its step joins the schedule; during a ramp-down ARRAY_MATMUL changes nothing;
RAMP_DOWN_END leaves the arrays idle and counts the level that the ramp-down began from as occupied, and changes
nothing otherwise. No byte of memory changes. (R135, R138, R140, R141, R148, R253). -/
def Obligations.ArrayStepsIssueAndRamp : Prop :=
  ∀ (s : State) (core : Coord) (q : Queue),
    let n := coreNo core
    let sq := (s.core n).seq
    (∀ s0 r0, NoErrors s → sq.ramp = .idle → Begins s n .array q 1 s0 r0 →
      ∃ t r, exec (.arrayMatmul core q) s = .next t ∧ InProgress t n .array q r
        ∧ (t.core n).seq.ramp = .active (s.fld Reg.FTK_RAMP 6 0) (s.fld Reg.PWR_STATUS 14 8) ∧ (t.core n).seq.cycle = 0
        ∧ r.entry = r0.entry ∧ r.iter = r0.iter ∧ r.first = 16
        ∧ r.writes = (s0.arrayValues n r0 [] (s0.changed (s.core n).seq.wideHeld)).drains.flatten
        ∧ r.wide = (s0.arrayValues n r0 [] (s0.changed (s.core n).seq.wideHeld)).merges.flatten
        ∧ OnlyCore { s with free := t.free } t n ∧ (t.core n).cp = (s.core n).cp ∧ Consumed s t n r0.st)
    ∧ (∀ top duty p, NoErrors s → sq.ramp = .active top duty → sq.array.running = some p → sq.array.overlap = none →
        p.entry.queue = q → p.last = false → p.cut = false → sq.waitHolds p.next.st = true →
        sq.outranked (unitRank q .array) p.next.st = false →
        (q = .main ∨ sq.array.waiting.any (fun e => decide (e.queue = .main) && sq.waitHolds e.step.toNat) = false) →
      ∃ t r, exec (.arrayMatmul core q) s = .next t ∧ (t.core n).seq.array.overlap = some r ∧ r.entry = p.entry
        ∧ r.iter = p.iter + 1 ∧ r.busy = true ∧ p.first ≤ r.first ∧ (t.core n).seq.array.running = some p
        ∧ OnlyCore { s with free := t.free } t n ∧ (t.core n).cp = (s.core n).cp ∧ Consumed s t n p.st)
    ∧ (∀ level, sq.ramp = .down level → exec (.arrayMatmul core q) s = .next s)
    ∧ (∀ level, sq.ramp = .down level → ∃ t, exec (.rampDownEnd core) s = .next t ∧ OnlyCore s t n
        ∧ t.core n = { s.core n with seq := { sq with ramp := .idle, cycle := 0, occupied := sq.occupied + level } })
    ∧ ((∀ level, sq.ramp ≠ .down level) → exec (.rampDownEnd core) s = .next s)

open Sys2Proof.Claims in
/-- The completion of an iteration makes its writes visible, releases its tokens, and the step goes on or ends. For
every core with an iteration in progress whose writes all lie in its alcove, and with no error in memory:
VECTOR_ITERATION_COMPLETION and MOVER_ITERATION_COMPLETION leave each byte that the iteration writes as its last write
says and every other byte as it was; the step stands at its next iteration, or is done after its last; the overflow
flag is set where a conversion overflowed and kept otherwise; each token counter keeps its value but for one release
where the step releases. ARRAY_STEP_COMPLETION writes the destination after the wide buffer, counts the rows and
cycles up to the end of the iteration, and begins a ramp-down from its level where no iteration joined it. Where
nothing is in progress nothing changes. (R244, R254, R133, R137, R148, R179). -/
def Obligations.CompletionsWriteAndRelease : Prop :=
  ∀ (s : State) (core : Coord),
    let n := coreNo core
    let sq := (s.core n).seq
    let local_ (l : List (Nat × Byte)) : Prop := ∀ w ∈ l, alcoveBase n ≤ w.1 ∧ w.1 < alcoveBase (n + 1)
    let landed (l : List (Nat × Byte)) (t : State) : Prop :=
      ∀ k, t.byte k = ((l.reverse.find? fun w => w.1 == k).map (·.2)).getD (s.byte k)
    let released (r : Run) (t : State) : Prop := TokensAre (t.core n).seq fun c =>
      if stRelEn r.st = true ∧ (stRelEach r.st = true ∨ r.last = true) ∧ c = stRelTc r.st then
        (if sq.tokOf c = 0xFFFFFFFF then sq.tokOf c else sq.tokOf c + 1)
      else sq.tokOf c
    (∀ p ∈ ([(.vectorIterationCompletion core, .vector), (.moverIterationCompletion core, .mover)] : List (Instr × UnitName)),
      (∀ r, (sq.unit p.2).running = some r → (sq.unit p.2).of r.entry.queue = some r → NoErrors s → local_ r.writes →
        ∃ t, exec p.1 s = .next t ∧ landed r.writes t ∧ released r t ∧ (∀ m, m ≠ n → t.core m = s.core m)
          ∧ (t.core n).cp = (s.core n).cp ∧ (t.core n).seq.ovf = (sq.ovf || r.overflow)
          ∧ t = { s with cores := t.cores, mem := t.mem }
          ∧ (((t.core n).seq.unit p.2).of r.entry.queue).map (·.iter)
            = if r.last ∨ r.cut then none else some (r.iter + 1))
      ∧ ((sq.unit p.2).running = none → exec p.1 s = .next s))
    ∧ (∀ r, sq.array.running = some r → sq.array.of r.entry.queue = some r → NoErrors s → local_ r.writes → local_ r.wide →
        r.nan = false → r.inf = false → sq.array.overlap = none → s.changed r.was = [] →
        ∀ top duty, sq.ramp = .active top duty → let last := max sq.cycle (dutyCycles duty top r.ends)
        ∃ t, exec (.arrayStepCompletion core) s = .next t ∧ landed (r.wide ++ r.writes) t ∧ released r t
          ∧ (t.core n).seq.ramp = (Ramp.active top duty).fall last
          ∧ (t.core n).seq.streamed = sq.streamed
            + rowsIn r.timeline (schedAt duty top sq.cycle) (schedAt duty top (dutyCycles duty top r.ends))
          ∧ (t.core n).seq.occupied = sq.occupied + (last - sq.cycle) ∧ t = { s with cores := t.cores, mem := t.mem }
          ∧ (∀ m, m ≠ n → t.core m = s.core m) ∧ (t.core n).cp = (s.core n).cp)
    ∧ (sq.array.running = none → exec (.arrayStepCompletion core) s = .next s)

open Sys2Proof.Claims in
/-- The element results of the floating-point and integer opcodes, and what R686 fixes of the fixed functions. On FP32
encodings: ADD, SUB, MUL and FMA are the exact sum, difference, product and multiply-add rounded once by RNE, RELU is
a or 0, DOUT_RELU passes b where the saved output is positive; IADD, ISUB, IMUL, IMAX and IMIN are the exact integer
results. The fixed functions give exactly 1 for exp(0), exactly +0 for exp(-infinity), and the produced NaN for a NaN
input. That the remaining values within 2 units in the last place are free is log entry 4. (R244, R686, R376, 07 Table
7.4). -/
def Obligations.VectorElementValues : Prop :=
  (∀ (imm free a b c : Nat) (err : Int),
    vectorOp 1 imm free err a b c = rne32 ((f32 a).add (f32 b))
    ∧ vectorOp 3 imm free err a b c = rne32 ((f32 a).mul (f32 b))
    ∧ vectorOp 6 imm free err a b c = rne32 (((f32 a).mul (f32 b)).add (f32 c)))
  ∧ exp32 0 = 0x3F800000 ∧ exp32 0xFF800000 = 0
  ∧ (∀ (f : FixedFn) (imm a : Nat), (f32 a).isNan = true → (bf16.decode imm).isNan = false → f.apply imm a = fp32.nanOut)
  ∧ (∀ a b : Int, vectorIntOp 0x38 a b = a + b ∧ vectorIntOp 0x39 a b = a - b ∧ vectorIntOp 0x3A a b = a * b
    ∧ vectorIntOp 0x3B a b = (if a < b then b else a) ∧ vectorIntOp 0x3C a b = (if a < b then a else b))

namespace Sys2Proof.Claims

/-- A packet reaches its destination core (R340, R343, R344, R80): from the mesh it was in flight; a port in service that
waits for no replay has received it for this device, with the frame number of the device. No die on its way is in a reset
step. `s1` is the state in which the destination acts. -/
def Arrives (s : State) (port : Option PortId) (p : Packet) (s1 : State) : Prop :=
  p.dst.x.toNat < 80 ∧ p.dst.y.toNat < 50 ∧ match port with
  | none => p ∈ s.flight ∧ (p.type = .msg → s.nextMsg p = true) ∧ s1 = { s with flight := s.flight.erase p }
      ∧ (s.flightDies p).any s.dieInReset = false
  | some g => s.portUp g.toNat = true ∧ (s.port g.toNat).rxWait = none ∧ p.ddev.toNat = s.deviceId
      ∧ p.frame.toNat = s.frame % 2 ^ 16
      ∧ s1 = s.onPort g.toNat (fun q => { q with
          freed := mapSet 0 q.freed p.type.vc (mapGet 0 q.freed p.type.vc + p.slots) })
      ∧ s.pathBlocked (portX g.toNat) (portY g.toNat) p.dst.x.toNat p.dst.y.toNat = false

/-- A context with the packet's job holds the hall of its destination, which no reset step covers (Table 10.4). -/
def HeldBy (s : State) (p : Packet) (c : Nat) : Prop :=
  let h := coreHall (coreNo p.dst)
  s.inStep h = false ∧ (s.hall h).holder = some c ∧ (s.ctx c).job = p.job.toNat

/-- No context with the packet's job holds the hall of its destination, and none is PREEMPTED on it. -/
def NoPeer (s : State) (p : Packet) : Prop :=
  let h := coreHall (coreNo p.dst)
  s.inStep h = true
  ∨ ((∀ c, (s.hall h).holder = some c → (s.ctx c).job ≠ p.job.toNat)
    ∧ ∀ e ∈ s.ctxs, e.2.state = .preempted → e.2.job = p.job.toNat → bit e.2.named h = false)

/-- What the grant records of a queue still hold for a peer (R345). -/
def granted (peer : Nat) (l : List GrantRec) : Nat := ((l.filter fun g => g.peer == peer).map (·.left)).sum

/-- A packet goes back to where `p` came from (R336). -/
def Answers (p a : Packet) (t : PacketType) : Prop :=
  a.type = t ∧ a.ddev = p.sdev ∧ a.dst = p.src ∧ a.sdev = p.ddev ∧ a.src = p.dst ∧ a.tile = p.tile ∧ a.job = p.job

/-- Receive queue `i` of the control processor changes as `f` says, and nothing else of it. -/
def QueueIs (c c' : Cp) (i : Nat) (x : RxQueue) : Prop :=
  (∀ j, c'.rxq j = if j = i then x else c.rxq j) ∧ c' = { c with rx := c'.rx }

end Sys2Proof.Claims

open Sys2Proof.Claims in
/-- MSG takes its place and is acknowledged, CREDIT_REQ is granted up to 4 free entries, CREDIT_RET gives back. For
every packet that arrives, from the mesh or from a port, at a core whose hall is held by a context with the packet's
job: MSG is appended to its receive queue with its sender's word, takes one credit of its sender from the grant
records and RES where it has one, and an ACK is sent; CREDIT_REQ reserves min(4, 16 - OCC - RES) entries for its
sender and a CREDIT_GRANT with that count is sent; CREDIT_RET takes its count, at most what its sender holds, from the
records and RES. The other queues and everything else of the core are as they were. Where no peer is there, MSG is
dropped and counted, CREDIT_REQ is granted nothing with ABSENT set, and CREDIT_RET is dropped. A packet of another
type than its command, or one that is not in flight, changes nothing, but one with a reserved TYPE counts in
GAR_PORT_UE of its port. An answer to this device joins the packets in flight. (R345, R346, R349, 10 Table 10.4, R343,
R516). -/
def Obligations.MessagesAndCreditsAtTheReceiver : Prop :=
  (∀ (s s1 : State) (port : Option PortId) (p : Packet), Arrives s port p s1 →
    let n := coreNo p.dst
    let i := p.queue.toNat
    let c := (s.core n).cp
    let q := c.rxq i
    let peer := coreWord p.sdev p.src
    (∀ ctx, HeldBy s p ctx →
      (p.type = .msg → (0 < granted peer q.grants ∨ q.entries.length + q.res < 16) →
        ∃ a q' s2, exec (.msg port p) s = .next (s2.post a) ∧ Answers p a .ack ∧ a.queue = p.queue ∧ OnlyCp s1 s2 n
          ∧ QueueIs c (s2.core n).cp i q' ∧ q'.entries = q.entries ++ [(p.payload, peer)]
          ∧ q'.res = q.res - min 1 (granted peer q.grants)
          ∧ ∀ x, granted x q'.grants = granted x q.grants - if x = peer then 1 else 0)
      ∧ (p.type = .creditReq → ∃ a q' s2, exec (.creditReq port p) s = .next (s2.post a) ∧ Answers p a .creditGrant
          ∧ a.absent = false ∧ a.count.toNat = min 4 (16 - q.entries.length - q.res) ∧ OnlyCp s1 s2 n
          ∧ QueueIs c (s2.core n).cp i q' ∧ q'.entries = q.entries ∧ q'.res = q.res + a.count.toNat
          ∧ ∀ x, granted x q'.grants = granted x q.grants + if x = peer then a.count.toNat else 0)
      ∧ (p.type = .creditRet → ∃ q' t, exec (.creditRet port p) s = .next t ∧ OnlyCp s1 t n
          ∧ QueueIs c (t.core n).cp i q' ∧ q'.entries = q.entries
          ∧ q'.res = q.res - min p.count.toNat (granted peer q.grants)
          ∧ ∀ x, granted x q'.grants = granted x q.grants - if x = peer then p.count.toNat else 0))
    ∧ (NoPeer s p →
      (p.type = .msg → ∃ t, exec (.msg port p) s = .next t ∧ t = { s1 with regs := t.regs }
        ∧ t.reg (Reg.HAL_MSG_RX_DROPS (coreHall n)) = min (s.reg (Reg.HAL_MSG_RX_DROPS (coreHall n)) + 1) 0xFFFFFFFF)
      ∧ (p.type = .creditReq → ∃ a, exec (.creditReq port p) s = .next (s1.post a) ∧ Answers p a .creditGrant
          ∧ a.count = 0 ∧ a.absent = true)
      ∧ (p.type = .creditRet → exec (.creditRet port p) s = .next s1)))
  ∧ (∀ (s : State) (port : Option PortId) (p : Packet),
      (p.type ≠ .msg → p.type ≠ .reserved → exec (.msg port p) s = .next s)
      ∧ (∀ g, port = some g → p.type = .reserved → s.portUp g.toNat = true → (s.port g.toNat).rxWait = none →
        ∃ t, exec (.msg port p) s = .next t ∧ t = { s with regs := t.regs }
          ∧ t.reg (Reg.GAR_PORT_UE g.toNat) = min (s.reg (Reg.GAR_PORT_UE g.toNat) + 1) 0xFFFFFFFF)
      ∧ (p ∉ s.flight → exec (.creditReq none p) s = .next s))
  ∧ (∀ (s : State) (a : Packet), a.ddev.toNat = s.deviceId → s.post a = { s with flight := s.flight ++ [a] })

open Sys2Proof.Claims in
/-- A CREDIT_GRANT enters the cache, requests are repeated, unused credits and old grant records go. For every
CREDIT_GRANT that arrives at a core whose hall is held by a context with its job: its credits enter the cache, at most
4 for a destination, the request for it is no longer outstanding, and a grant of none is counted in HAL_CREDIT_WAITS
and makes the request due again; where the cache is full, the least recently used entry makes room; in the drain of a
spill the credits go back and the cache stays as it is. CREDIT_REQ_RETRY sends the request of a waiting SEND again;
CREDIT_EXPIRY takes unused credits from the cache and returns them in a CREDIT_RET; GRANT_RECORD_EXPIRY removes the
oldest record of a queue and what it held of RES, on the core or in the saved record of a PREEMPTED context;
MSG_CREDIT_TIMEOUT records and reports a SEND without a credit once. Where none is due, nothing changes. (R346, R347,
R348, R351, R352, R353). -/
def Obligations.CreditsAtTheSender : Prop :=
  (∀ (s s1 : State) (port : Option PortId) (p : Packet) (ctx : Nat), Arrives s port p s1 → HeldBy s p ctx →
    p.type = .creditGrant → s.draining (coreNo p.dst) = false →
    let n := coreNo p.dst
    let w := fromWord p
    let c := (s.core n).cp
    let others := c.cache.filter fun e => e.dest ≠ w
    let req := if c.creditReq = some w then none else c.creditReq
    (p.count = 0 → ∃ t, exec (.creditGrant port p) s = .next t ∧ t = { s1 with cores := t.cores, regs := t.regs }
      ∧ (∀ m, m ≠ n → t.core m = s.core m)
      ∧ t.core n = { s.core n with cp := { c with creditReq := req, retryDue := true } }
      ∧ t.reg (Reg.HAL_CREDIT_WAITS (coreHall n)) = min (s.reg (Reg.HAL_CREDIT_WAITS (coreHall n)) + 1) 0xFFFFFFFF)
    ∧ (p.count ≠ 0 → others.length < 8 → ∃ t, exec (.creditGrant port p) s = .next t ∧ OnlyCp s1 t n
      ∧ (t.core n).cp = { c with creditReq := req, cache := ⟨w, min 4 (c.creditsFor w + p.count.toNat)⟩ :: others })
    ∧ (∀ e, p.count ≠ 0 → others.length = 8 → others.getLast? = some e → e.credits ≠ 0 → e.dest / 2 ^ 16 = s.deviceId →
      ∃ t r, exec (.creditGrant port p) s = .next t ∧ OnlyCp { s1 with flight := s1.flight ++ [r] } t n
        ∧ r.type = .creditRet ∧ r.count.toNat = e.credits % 8 ∧ r.dst.x.toNat = (e.dest / 64) % 128
        ∧ (t.core n).cp = { c with
            creditReq := req, cache := ⟨w, min 4 (c.creditsFor w + p.count.toNat)⟩ :: others.dropLast }))
  ∧ (∀ (s s1 : State) (port : Option PortId) (p : Packet) (ctx : Nat), Arrives s port p s1 → HeldBy s p ctx →
    p.type = .creditGrant → s.draining (coreNo p.dst) = true → p.count ≠ 0 → fromWord p / 2 ^ 16 = s.deviceId →
    let n := coreNo p.dst
    let c := (s.core n).cp
    ∃ t r, exec (.creditGrant port p) s = .next t ∧ OnlyCp { s1 with flight := s1.flight ++ [r] } t n
      ∧ r.type = .creditRet ∧ r.count = p.count
      ∧ (t.core n).cp = { c with creditReq := if c.creditReq = some (fromWord p) then none else c.creditReq })
  ∧ (∀ (s : State) (core : Coord) (w : W32) (queue : BitVec 3),
    let n := coreNo core
    let c := (s.core n).cp
    let i := queue.toNat
    (c.retryDue = false → exec (.creditReqRetry core) s = .next s)
    ∧ (∀ pay b, c.retryDue = true → c.block = .send w.toNat pay b → c.creditReq = none → c.creditsFor w.toNat = 0 →
      s.inStep (coreHall n) = false → destDevice w = s.deviceId → ∃ t r, exec (.creditReqRetry core) s = .next t
        ∧ OnlyCp { s with flight := s.flight ++ [r] } t n ∧ r.type = .creditReq ∧ r.dst.x.toNat = destX w
        ∧ r.dst.y.toNat = destY w ∧ r.queue.toNat = (w.toNat / 2 ^ 13) % 8
        ∧ (t.core n).cp = { c with creditReq := some w.toNat, retryDue := false })
    ∧ (c.creditsFor w.toNat = 0 → exec (.creditExpiry core w) s = .next s)
    ∧ (c.creditsFor w.toNat ≠ 0 → destDevice w = s.deviceId → ∃ t r, exec (.creditExpiry core w) s = .next t
        ∧ OnlyCp { s with flight := s.flight ++ [r] } t n ∧ r.type = .creditRet
        ∧ r.count.toNat = c.creditsFor w.toNat % 8 ∧ r.dst.x.toNat = destX w ∧ r.dst.y.toNat = destY w
        ∧ (∀ d, (t.core n).cp.creditsFor d = if d = w.toNat then 0 else c.creditsFor d)
        ∧ (t.core n).cp = { c with cache := (t.core n).cp.cache })
    ∧ ((c.rxq i).grants = [] → exec (.grantRecordExpiry core queue none) s = .next s)
    ∧ (∀ g rest, (c.rxq i).grants = g :: rest → ∃ t, exec (.grantRecordExpiry core queue none) s = .next t ∧ OnlyCp s t n
        ∧ QueueIs c (t.core n).cp i { c.rxq i with res := (c.rxq i).res - g.left, grants := rest })
    ∧ (∀ ctx : CtxId, ∀ cp g rest, (mapGet {} (s.ctx ctx.toNat).saved n).record = some cp → (cp.rxq i).grants = g :: rest →
        ∃ t cp', exec (.grantRecordExpiry core queue (some ctx)) s = .next t ∧ t = { s with ctxs := t.ctxs }
          ∧ (∀ x, x ≠ ctx.toNat → t.ctx x = s.ctx x)
          ∧ (mapGet {} (t.ctx ctx.toNat).saved n).record = some cp'
          ∧ QueueIs cp cp' i { cp.rxq i with res := (cp.rxq i).res - g.left, grants := rest })
    ∧ (∀ pay, c.block = .send w.toNat pay true → exec (.msgCreditTimeout core) s = .next s)
    ∧ (∀ pay, c.block = .send w.toNat pay false → c.creditsFor w.toNat = 0 → core.x.toNat < 80 → core.y.toNat < 50 →
      let h := coreHall n
      ∃ s2 : State, exec (.msgCreditTimeout core) s
          = .next (s2.raise { src := 0x19, hall := h, ctx := s.holderOf n, code := 0x0509, x := core.x.toNat, y := core.y.toNat })
        ∧ s2 = { s with cores := s2.cores, regs := s2.regs } ∧ (∀ m, m ≠ n → s2.core m = s.core m)
        ∧ s2.core n = { s.core n with cp := { c with block := .send w.toNat pay true } }
        ∧ s2.reg (Reg.HAL_MSG_FAULT h) = 2 ^ 63 + 2 ^ 46 * c.pc.toNat + 2 ^ 39 * core.x.toNat + 2 ^ 33 * core.y.toNat + 0x0509
        ∧ s2.reg (Reg.HAL_MSG_FAULT_PEER h) = w.toNat
        ∧ s2.reg (Reg.HAL_MSG_FAULT_COUNT h) = min (s.reg (Reg.HAL_MSG_FAULT_COUNT h) + 1) 0xFFFFFFFF))

namespace Sys2Proof.Claims

/-- A unit has nothing that a queue waits for or runs. -/
def Abandoned (t : State) (n : Nat) (k : Queue) : Prop := ((t.core n).seq.queue k).stopped = true

/-- What HAL_MSG_FAULT and its companions hold after a step or a message of a core was abandoned (Table 10.10). -/
def MsgFault (s s2 : State) (n q slot idx code peer : Nat) : Prop :=
  let h := coreHall n
  s2.reg (Reg.HAL_MSG_FAULT h)
    = 2 ^ 63 + 2 ^ 62 * q + 2 ^ 58 * slot + 2 ^ 46 * idx + 2 ^ 39 * coreX n + 2 ^ 33 * coreY n + code
  ∧ s2.reg (Reg.HAL_MSG_FAULT_PEER h) = peer
  ∧ s2.reg (Reg.HAL_MSG_FAULT_COUNT h) = min (s.reg (Reg.HAL_MSG_FAULT_COUNT h) + 1) 0xFFFFFFFF

end Sys2Proof.Claims

open Sys2Proof.Claims in
/-- A tile or signal of the current epoch is written, releases its counter and is acknowledged; others get a NACK. For
every packet that arrives at a core whose hall is held by a context with its job: a SIGNAL of the context's epoch adds
1 to its token counter, saturating; a PUT or PUT_ADD whose receiving descriptor passes the checks of Table 10.5, with
no error in memory, writes the elements of the tile or their pair sums at their places, adds 1 to its counter and
leaves every other byte as it was; each is acknowledged after that. A packet up to 32,767 epochs ahead is counted and
answered by a NACK with EPOCH_AHEAD, an older one with EPOCH_STALE, and one whose job is not there with
MSG_PEER_ABSENT; nothing is written or released then. SYNC_SIGNAL at the front of its queue, once its wait holds,
sends its signal under the next tile number and waits for its ACK. (R356, R357, R358, R361, R365, R255, 10 Table
10.5). -/
def Obligations.TilesAndSignalsAtTheReceiver : Prop :=
  (∀ (s s1 : State) (port : Option PortId) (p : Packet), Arrives s port p s1 →
    let n := coreNo p.dst
    let h := coreHall n
    let plusOne (t : State) : Prop := TokensAre (t.core n).seq fun c =>
      if c = p.rtc.toNat then (if (s.core n).seq.tokOf c = 0xFFFFFFFF then 0xFFFFFFFF else (s.core n).seq.tokOf c + 1)
      else (s.core n).seq.tokOf c
    ∀ i ∈ ([(.put port p, .put), (.putAdd port p, .putAdd), (.signal port p, .signal)] : List (Instr × PacketType)),
      p.type = i.2 →
      (∀ ctx, HeldBy s p ctx → p.epoch.toNat = (s.ctx ctx).epoch % 2 ^ 16 →
        (i.2 = .signal → ∃ (a : Packet) (s2 : State), exec i.1 s = .next (s2.post a) ∧ Answers p a .ack ∧ OnlyCore s1 s2 n
          ∧ (s2.core n).cp = (s.core n).cp ∧ plusOne s2)
        ∧ (i.2 ≠ .signal → ∀ d w, NoErrors s → s.descOf n p.dd.toNat = some d → rxDescCheck n p d = none →
          w = (if i.2 = .put then s.putTile n p d else s.addTile n p d) →
          ∃ (a : Packet) (s2 : State), exec i.1 s = .next (s2.post a) ∧ Answers p a .ack ∧ s2 = { s1 with cores := s2.cores, mem := s2.mem }
            ∧ (∀ m, m ≠ n → s2.core m = s.core m) ∧ (s2.core n).cp = (s.core n).cp ∧ plusOne s2
            ∧ ∀ k, s2.byte k = ((w.reverse.find? fun e => e.1 == k).map (·.2)).getD (s.byte k))
        ∧ (i.2 ≠ .signal → ∀ code, rxDescCheck n p (s.descOf n p.dd.toNat) = some code → code < 2 ^ 16 →
          ∃ a, exec i.1 s = .next (s1.post a) ∧ Answers p a .nack ∧ a.code.toNat = code))
      ∧ (∀ ctx, HeldBy s p ctx → ∀ ahead, 1 ≤ ahead → ahead < 2 ^ 16 →
          p.epoch.toNat = ((s.ctx ctx).epoch + ahead) % 2 ^ 16 →
          let reg := if ahead ≤ 0x7FFF then Reg.HAL_EPOCH_AHEAD h else Reg.HAL_EPOCH_STALE h
          ∃ (a : Packet) (s2 : State), exec i.1 s = .next (s2.post a) ∧ Answers p a .nack
            ∧ a.code.toNat = (if ahead ≤ 0x7FFF then 0x0503 else 0x0501)
            ∧ s2 = { s1 with regs := s2.regs } ∧ s2.reg reg = min (s.reg reg + 1) 0xFFFFFFFF)
      ∧ (NoPeer s p → ∃ a, exec i.1 s = .next (s1.post a) ∧ Answers p a .nack ∧ a.code.toNat = 0x0507))
  ∧ (∀ (s : State) (core : Coord) (q : Queue) (st slot : Nat),
    let n := coreNo core
    let sq := (s.core n).seq
    sq.front q = some (slot, st) → stIsSignal st = true →
    (sq.waitHolds st = false ∨ sq.outranked (syncRank q) st = true → exec (.syncSignal core q) s = .next s)
    ∧ (sq.waitHolds st = true → sq.outranked (syncRank q) st = false → s.issueCheck n st = none → stDevice st = s.deviceId →
      ∃ t r, exec (.syncSignal core q) s = .next t ∧ OnlyCore { s with flight := s.flight ++ [r] } t n
        ∧ (t.core n).cp = (s.core n).cp ∧ Consumed s t n st ∧ r.type = .signal ∧ r.dst.x.toNat = stX st
        ∧ r.dst.y.toNat = stY st ∧ r.rtc.toNat = stRtc st ∧ r.tile.toNat = nextTile sq.tileNext
        ∧ (t.core n).seq.tileNext = nextTile sq.tileNext
        ∧ ∃ g, (t.core n).seq.signals = sq.signals ++ [g] ∧ g.tile = nextTile sq.tileNext ∧ g.retry = false
            ∧ g.entry.queue = q ∧ g.entry.step.toNat = st % 2 ^ 128))

open Sys2Proof.Claims in
/-- An ACK frees its entry or completes its step, a NACK or a time-out abandons it or has it sent again. For every ACK
or NACK that arrives at a core whose hall is held by a context with its job: an ACK without a tile number frees the
oldest send-buffer entry of its sender; an ACK of the tile in progress completes the iteration with its release, and
one of a signal retires the signal with its release; a NACK with EPOCH_AHEAD marks the tile or signal for repetition;
any other code abandons the step: its queue stops, HAL_MSG_FAULT records it and MSG_ABANDONED is raised; a NACK of a
message loses it and a NACK of a credit request makes the request due again. EPOCH_AHEAD_RETRY sends a marked tile or
signal again and LINK_RSP_TIMEOUT acts as a NACK with its code. Anything that names nothing outstanding changes
nothing. (R350, R361, R362, R365, R532, R533). -/
def Obligations.RepliesCompleteOrAbandon : Prop :=
  let abandoned (o : Host.Outcome State Fault Refusal) (s s1 : State) (n : Nat) (e : Entry) (code : Nat)
      (gone : Seq → Prop) : Prop :=
    ∃ s2 : State, o = .next ((s2.raise { src := 0x18, hall := coreHall n, ctx := s.holderOf n, code := code, x := coreX n, y := coreY n }).settle n)
      ∧ s2 = { s1 with cores := s2.cores, regs := s2.regs } ∧ (∀ m, m ≠ n → s2.core m = s.core m)
      ∧ (s2.core n).cp = (s.core n).cp ∧ gone (s2.core n).seq ∧ ((s2.core n).seq.queue e.queue).stopped = true
      ∧ (∀ c, (s2.core n).seq.tokOf c = (s.core n).seq.tokOf c)
      ∧ MsgFault s s2 n (if e.queue = .idle then 1 else 0) e.slot e.idx code
          (2 ^ 16 * stDevice e.step.toNat + 64 * stX e.step.toNat + stY e.step.toNat)
  let lost (o : Host.Outcome State Fault Refusal) (s s1 : State) (n : Nat) (e : SendEntry) (code : Nat) : Prop :=
    ∃ s2 : State, o = .next (s2.raise { src := 0x1A, hall := coreHall n, ctx := s.holderOf n, code := code, x := coreX n, y := coreY n })
      ∧ s2 = { s1 with cores := s2.cores, regs := s2.regs } ∧ (∀ m, m ≠ n → s2.core m = s.core m)
      ∧ s2.core n = { s.core n with cp := { (s.core n).cp with sendBuf := (s.core n).cp.sendBuf.erase e } }
      ∧ MsgFault s s2 n 0 0 e.pc code e.dest
  (∀ (s s1 : State) (port : Option PortId) (p : Packet) (ctx : Nat), Arrives s port p s1 → HeldBy s p ctx →
    let n := coreNo p.dst
    let c := (s.core n).cp
    let q := (s.core n).seq
    let code := p.code.toNat
    let released (st : Nat) (t : State) : Prop := TokensAre (t.core n).seq fun k =>
      if stRelEn st = true ∧ k = stRelTc st then (if q.tokOf k = 0xFFFFFFFF then 0xFFFFFFFF else q.tokOf k + 1)
      else q.tokOf k
    (p.type = .ack → p.tile = 0 → ∀ e, c.sendBuf.find? (fun e => e.dest == fromWord p) = some e →
      ∃ t, exec (.ack port p) s = .next t ∧ OnlyCp s1 t n ∧ (t.core n).cp = { c with sendBuf := c.sendBuf.erase e })
    ∧ (p.type = .ack → p.tile ≠ 0 → ∀ r, q.mesh.running = some r → q.mesh.of r.entry.queue = some r →
        r.tile = p.tile.toNat → r.writes = [] → r.overflow = false → NoErrors s →
      ∃ t, exec (.ack port p) s = .next t ∧ OnlyCore s1 { t with mem := s1.mem } n ∧ SameBytes s t ∧ (t.core n).cp = c
        ∧ ((stRelEach r.st = true ∨ r.last = true) → released r.st t)
        ∧ (((t.core n).seq.mesh).of r.entry.queue).map (·.iter) = if r.last ∨ r.cut then none else some (r.iter + 1))
    ∧ (p.type = .ack → p.tile ≠ 0 → q.mesh.running = none → ∀ g, q.signals.find? (fun g => g.tile == p.tile.toNat) = some g →
      ∃ t, exec (.ack port p) s = .next t ∧ OnlyCore s1 t n ∧ (t.core n).cp = c ∧ released g.entry.step.toNat t
        ∧ (t.core n).seq.signals = q.signals.erase g)
    ∧ (p.type = .nack → p.tile ≠ 0 → code ≠ 0x0807 → ∀ r, q.mesh.running = some r → q.mesh.of r.entry.queue = some r →
        r.tile = p.tile.toNat → r.entry.slot < 16 → r.entry.idx < 4096 →
      (code = 0x0503 → ∃ t, exec (.nack port p) s = .next t ∧ OnlyCore s1 t n ∧ (t.core n).cp = c
        ∧ (t.core n).seq.mesh.of r.entry.queue = some { r with retry := true } ∧ ∀ k, (t.core n).seq.tokOf k = q.tokOf k)
      ∧ (code ≠ 0x0503 → abandoned (exec (.nack port p) s) s s1 n r.entry code fun x => x.mesh.of r.entry.queue = none))
    ∧ (p.type = .nack → p.tile = 0 → code ≠ 0x0807 →
      (∀ e, c.sendBuf.find? (fun e => setBits e.dest 15 13 0 == coreWord p.sdev p.src) = some e → e.pc < 4096 → e.dest < 2 ^ 32 →
        lost (exec (.nack port p) s) s s1 n e code)
      ∧ (c.sendBuf = [] → ∀ d, c.creditReq = some d → setBits d 15 13 0 = coreWord p.sdev p.src →
        ∃ t, exec (.nack port p) s = .next t ∧ OnlyCp s1 t n ∧ (t.core n).cp = { c with creditReq := none, retryDue := true })))
  ∧ (∀ (s : State) (core : Coord) (tile : W32), core.x.toNat < 80 → core.y.toNat < 50 →
    let n := coreNo core
    let c := (s.core n).cp
    let q := (s.core n).seq
    (q.mesh.running = none → q.signals = [] →
      exec (.epochAheadRetry core tile) s = .next s ∧ (tile ≠ 0 → exec (.linkRspTimeout core tile) s = .next s))
    ∧ (∀ r, q.mesh.running = some r → q.mesh.of r.entry.queue = some r → r.tile = tile.toNat → r.retry = true →
        stDevice r.st = s.deviceId → ∃ t a, exec (.epochAheadRetry core tile) s = .next t
        ∧ OnlyCore { s with flight := s.flight ++ [a] } t n ∧ a.tile = tile ∧ a.dst.x.toNat = stX r.st
        ∧ a.type = (if stOp r.st = 1 then .put else .putAdd)
        ∧ (t.core n).seq.mesh.of r.entry.queue = some { r with retry := false })
    ∧ (∀ g, q.mesh.running = none → q.signals.find? (fun g => g.tile == tile.toNat) = some g → g.retry = true →
        stDevice g.entry.step.toNat = s.deviceId → ∃ t a, exec (.epochAheadRetry core tile) s = .next t
        ∧ OnlyCore { s with flight := s.flight ++ [a] } t n ∧ a.tile.toNat = g.tile ∧ a.type = .signal
        ∧ (t.core n).seq.signals = q.signals.map fun x => if x = g then { x with retry := false } else x)
    ∧ (∀ r, tile ≠ 0 → q.mesh.running = some r → q.mesh.of r.entry.queue = some r → r.tile = tile.toNat →
        r.entry.slot < 16 → r.entry.idx < 4096 →
        abandoned (exec (.linkRspTimeout core tile) s) s s n r.entry 0x0806 fun x => x.mesh.of r.entry.queue = none)
    ∧ (∀ e rest, c.sendBuf = e :: rest → e.pc < 4096 → e.dest < 2 ^ 32 → lost (exec (.linkRspTimeout core 0) s) s s n e 0x0806))

namespace Sys2Proof.Claims

/-- The two states differ at most in registers, and there at most in those of a list. -/
def OnlyRegs (s t : State) (l : List Nat) : Prop := t = { s with regs := t.regs } ∧ ∀ a, a ∉ l → t.reg a = s.reg a

/-- The registers agree but for those of a list. -/
def OtherRegs (s t : State) (l : List Nat) : Prop := ∀ a, a ∉ l → t.reg a = s.reg a

/-- The counter advanced by one, saturating. -/
def plus1 (v : Nat) : Nat := min (v + 1) 0xFFFFFFFF

end Sys2Proof.Claims

open Sys2Proof.Claims in
/-- The time counter is loaded and captured, follows its source through the states of Table 2.1, and marks whole
seconds. For every state with the registers answering: FTK_SNAP captures the seconds, the rest and the frame number
and changes no other register; FTK_SET loads the counter and gives FREERUN without a source and ACQUIRING with one,
and is refused with FRAME_CFG_LOCKED while RUN or TICKING is 1; a change of SOURCE enters ACQUIRING, or FREERUN
without a source. Always: HOLDOVER that expires gives FREERUN and its event; an edge on 1PPS_IN is captured, and as
the source a small offset counts towards the eighth that locks; a missing edge of the source turns LOCKED into
HOLDOVER and is reported; the whole second moves the counter there and gives a pulse of 10 us in the mode SECOND.
Nothing else changes. (R48, R53, R54, R57, R58, R684, R685, R655, R656, 02 Table 2.1). -/
def Obligations.TimeCounterLoadsAndDisciplines : Prop :=
  ∀ s : State,
    let unit := unitsPerNs
    let second := 1000000000 * unit
    let small := s.clk.time % second
    let locked := bit (s.reg Reg.FTK_CTRL) 0 = true ∨ s.fr.ticking = true
    (s.ready = true →
      (∃ t, exec .ftkSnap s = .next t ∧ OnlyRegs s t [Reg.FTK_SNAP_SEC, Reg.FTK_SNAP_NSF, Reg.FTK_SNAP_FRAME]
        ∧ t.reg Reg.FTK_SNAP_SEC = s.timeSec ∧ t.reg Reg.FTK_SNAP_NSF = 65536 * s.timeSubNs + s.timeFrac
        ∧ t.reg Reg.FTK_SNAP_FRAME = s.frame)
      ∧ (¬ locked → ∃ t, exec .ftkSet s = .next t ∧ t = { s with clk := t.clk, regs := t.regs }
        ∧ OtherRegs s t [Reg.FTK_OFFSET]
        ∧ t.clk.time = unit * (1000000000 * s.reg Reg.FTK_SET_SEC + s.reg Reg.FTK_SET_NS) ∧ t.clk.loaded = true
        ∧ t.clk.disc = (if s.fld Reg.FTK_CTRL 6 5 = 0 then .freerun else .acquiring) ∧ t.clk.lockRun = 0
        ∧ t.clk.mono = s.clk.mono)
      ∧ (locked → ∃ s2, exec .ftkSet s = .next (State.raise s2 { src := 0x34, code := 0x0404 })
        ∧ OnlyRegs s s2 [Reg.FTK_STATUS] ∧ s2.fld Reg.FTK_STATUS 31 16 = 0x0404)
      ∧ (∀ v : W32, bits v.toNat 6 5 ≠ s.fld Reg.FTK_CTRL 6 5 → bit v.toNat 0 = bit (s.reg Reg.FTK_CTRL) 0 →
        ∃ t, exec (.ftkSourceChange v) s = .next t ∧ t = { s with clk := t.clk, regs := t.regs }
          ∧ OtherRegs s t [Reg.FTK_CTRL, Reg.FTK_OFFSET] ∧ t.fld Reg.FTK_CTRL 6 5 = bits v.toNat 6 5
          ∧ bit (t.reg Reg.FTK_CTRL) 7 = bit v.toNat 7 ∧ bit (t.reg Reg.FTK_CTRL) 0 = bit (s.reg Reg.FTK_CTRL) 0
          ∧ t.clk.time = s.clk.time ∧ t.clk.loaded = s.clk.loaded
          ∧ t.clk.disc = (if bits v.toNat 6 5 ≠ 0 then .acquiring else if s.clk.disc = .unset then .unset else .freerun)))
    ∧ (s.clk.disc ≠ .holdover → exec .holdoverExpired s = .next s)
    ∧ (s.clk.disc = .holdover → ∃ s2, exec .holdoverExpired s = .next (State.raise s2 { src := 0x33, code := 0x0408 })
        ∧ s2 = { s with clk := s2.clk, regs := s2.regs } ∧ OtherRegs s s2 [Reg.FTK_OFFSET, Reg.FTK_STATUS]
        ∧ s2.clk.disc = .freerun ∧ s2.clk.time = s.clk.time ∧ s2.reg Reg.FTK_OFFSET = 0
        ∧ s2.fld Reg.FTK_STATUS 31 16 = 0x0408)
    ∧ (s.fld Reg.FTK_CTRL 6 5 < 2 → ∃ t, exec .ppsInEdge s = .next t
        ∧ OnlyRegs s t [Reg.FTK_PPS_IN_SEC, Reg.FTK_PPS_IN_NSF] ∧ t.reg Reg.FTK_PPS_IN_SEC = s.timeSec
        ∧ t.reg Reg.FTK_PPS_IN_NSF = 65536 * s.timeSubNs + s.timeFrac)
    ∧ (s.fld Reg.FTK_CTRL 6 5 = 2 → s.clk.loaded = true → s.clk.disc = .acquiring → s.fr.ticking = false →
        small ≤ unit * s.fld Reg.FTK_LOCK_NS 7 0 → ∃ t, exec .ppsInEdge s = .next t
        ∧ t = { s with clk := t.clk, regs := t.regs } ∧ t.clk.time = s.clk.time
        ∧ t.reg Reg.FTK_OFFSET = small / unit ∧ t.reg Reg.FTK_PPS_IN_SEC = s.timeSec
        ∧ (7 ≤ s.clk.lockRun → t.clk.disc = .locked)
        ∧ (s.clk.lockRun < 7 → t.clk.disc = .acquiring ∧ t.clk.lockRun = s.clk.lockRun + 1))
    ∧ (s.fld Reg.FTK_CTRL 6 5 < 2 → exec .ppsInMissing s = .next s)
    ∧ (2 ≤ s.fld Reg.FTK_CTRL 6 5 → ∃ s2, exec .ppsInMissing s = .next (State.raise s2 { src := 0x35 })
        ∧ s2 = { s with clk := s2.clk } ∧ s2.clk.time = s.clk.time
        ∧ s2.clk.disc = (if s.clk.disc = .locked then .holdover else s.clk.disc))
    ∧ (s.clk.loaded = false → exec .ppsOutSecond s = .next s)
    ∧ (s.clk.loaded = true → ∃ t, exec .ppsOutSecond s = .next t ∧ t = { s with clk := t.clk, out := t.out }
        ∧ t.clk.time = second * (s.clk.time / second + 1) ∧ t.clk.disc = s.clk.disc
        ∧ t.out = if s.fld Reg.FTK_PPS_CTRL 1 0 = 1 then s.out ++ [.ppsPulse 10000] else s.out)

open Sys2Proof.Claims in
/-- RUN starts ticks only with a loaded counter and a locked discipline, a stop waits for the landing, and TICK begins
the next frame. For every state with the registers answering and a write that keeps SOURCE: RUN written 1 without
ticks is accepted with the counter loaded and the discipline LOCKED, or ALLOW_UNLOCKED and not UNSET, and refused with
TIME_UNLOCKED otherwise, RUN staying 0; RUN written 0 ends ticks at once between landings before a tick, and asks for
a stop otherwise. A TICK that is due advances the frame number, by one or to the frame of the counter, makes every
hall ready for its gallery starts, drops the flag messages of the last landing, and finds no core with progress in the
new frame; one that is not due changes nothing. Nothing else of a core and no byte of memory changes. (R55, R58, R59,
R60, R61, R70, R71, R73). -/
def Obligations.TicksStartStopAndCount : Prop :=
  (∀ (s : State) (v : W32), s.ready = true → bits v.toNat 6 5 = s.fld Reg.FTK_CTRL 6 5 →
    let run := bit (s.reg Reg.FTK_CTRL) 0
    let may := s.clk.loaded = true ∧ (s.clk.disc = .locked ∨ (bit v.toNat 7 = true ∧ s.clk.disc ≠ .unset))
    let quiet := s.fr.landing = .closed ∧ s.fr.ticked = false
    (run = false → s.fr.ticking = false → may → ∃ t, exec (.ftkRunStart v) s = .next t
      ∧ t = { s with fr := t.fr, regs := t.regs } ∧ OtherRegs s t [Reg.FTK_CTRL] ∧ bit (t.reg Reg.FTK_CTRL) 0 = true
      ∧ bit (t.reg Reg.FTK_CTRL) 7 = bit v.toNat 7 ∧ t.fr = { s.fr with starting := true, runAt := s.monoNs })
    ∧ (run = false → s.fr.ticking = false → ¬ may →
      ∃ s2, exec (.ftkRunStart v) s = .next (State.raise s2 { src := 0x30, code := 0x0405 })
      ∧ OnlyRegs s s2 [Reg.FTK_CTRL, Reg.FTK_STATUS] ∧ bit (s2.reg Reg.FTK_CTRL) 0 = false
      ∧ s2.fld Reg.FTK_STATUS 31 16 = 0x0405)
    ∧ (run = false → s.fr.ticking = true → ∃ t, exec (.ftkRunStart v) s = .next t
      ∧ bit (t.reg Reg.FTK_CTRL) 0 = true ∧ t.fr = { s.fr with stopPending := false })
    ∧ (run = true → ∃ t, exec (.ftkRunStop v) s = .next t ∧ t = { s with fr := t.fr, regs := t.regs }
      ∧ OtherRegs s t [Reg.FTK_CTRL] ∧ bit (t.reg Reg.FTK_CTRL) 0 = false
      ∧ (quiet → t.fr = { s.fr with starting := false, ticking := false, stopPending := false })
      ∧ (¬ quiet → t.fr = { s.fr with starting := false, stopPending := s.fr.ticking })))
  ∧ (∀ s : State,
    let due := (s.fr.starting = true ∨ (s.fr.ticking = true ∧ s.fr.stopPending = false)) ∧ s.fr.ticked = false
      ∧ s.fr.landing ≠ .step2 ∧ s.clk.loaded = true
    (¬ due → exec .tick s = .next s)
    ∧ (due → ∃ t, exec .tick s = .next t ∧ (∀ m, t.core m = { s.core m with seq := { (s.core m).seq with progress := false } })
      ∧ t.mem = s.mem ∧ t.ctxs = s.ctxs ∧ t.pending = s.pending
      ∧ t.frame = s.nextFrame % 2 ^ 64 ∧ OtherRegs s t [Reg.FTK_FRAME, Reg.PWR_STATUS]
      ∧ t.fr = { s.fr with ticking := true, starting := false, ticked := true }
      ∧ (s.fr.starting = false → s.nextFrame = max (s.frame + 1)
          ((s.timeNs - (1000000000 * s.reg Reg.FTK_EPOCH_SEC + s.reg Reg.FTK_EPOCH_NS)) / s.reg Reg.FTK_PERIOD))
      ∧ (∀ h, h < 16 → t.hall h = { s.hall h with
          started := 0, galleryStart := [], lateStart := decide ((s.hall h).stage ≠ .done) || s.power.brake })
      ∧ (∀ g, g < 16 → t.lsGroup g = { s.lsGroup g with msgs := [] })))

open Sys2Proof.Claims in
/-- A frame configuration write in range is taken and sets the budget, one out of range or locked is refused whole.
For every state with the registers answering and every register of R56: a value in its range, while frame
configuration is not locked, is what the register holds then, and no register but it and FTK_BUDGET changes;
FTK_BUDGET follows FTK_PERIOD and FTK_LANDING as in R65; a locked register is refused with FRAME_CFG_LOCKED and a
value out of range with FRAME_CFG_INVALID, and the register keeps its value. A held or latched half of the register
written is dropped. 1PPS_OUT falls where a write takes FTK_PPS_CTRL out of the mode LANDING while the pin is high. A
write to another register is none of these and changes no register. (R56, R57, R65, R656, R683). -/
def Obligations.FrameConfigurationWrites : Prop :=
  ∀ (s : State) (off : W32) (v : W64), s.ready = true →
    let a := off.toNat
    let lockable := a ∈ [Reg.FTK_PERIOD, Reg.FTK_LANDING, Reg.FTK_OR_WINDOW, Reg.FTK_RAMP, Reg.FTK_EPOCH_SEC, Reg.FTK_EPOCH_NS]
    let locked := bit (s.reg Reg.FTK_CTRL) 0 = true ∨ s.fr.ticking = true
    let s0 := s.dropHalves a
    let falls (x : Nat) : Prop := a = Reg.FTK_PPS_CTRL ∧ bits x 1 0 ≠ 3 ∧ s.fr.ppsHigh = true
    (frameCfgReg a = false → exec (.ftkConfigWrite off v) s = .next s0)
    ∧ (∀ r, regRow a = some r → frameCfgReg a = true →
      let x := v.toNat &&& r.rw
      (¬ (lockable ∧ locked) → s.frameValueOk a x = true → ¬ falls x → ∃ t, exec (.ftkConfigWrite off v) s = .next t
        ∧ OnlyRegs s0 t [a, Reg.FTK_BUDGET] ∧ t.reg a = x)
      ∧ (s.frameValueOk a x = true → falls x → ∃ t, exec (.ftkConfigWrite off v) s = .next t
        ∧ t = { s0 with regs := t.regs, fr := { s.fr with ppsHigh := false }, out := s.out ++ [.ppsLevel false] }
        ∧ OtherRegs s t [a, Reg.FTK_BUDGET] ∧ t.reg a = x)
      ∧ (lockable → locked → ∃ s2, exec (.ftkConfigWrite off v) s = .next (State.raise s2 { src := 0x34, code := 0x0404 })
        ∧ OnlyRegs s0 s2 [Reg.FTK_STATUS] ∧ s2.fld Reg.FTK_STATUS 31 16 = 0x0404)
      ∧ (¬ (lockable ∧ locked) → s.frameValueOk a x = false →
        ∃ s2, exec (.ftkConfigWrite off v) s = .next (State.raise s2 { src := 0x34, code := 0x0409 })
        ∧ OnlyRegs s0 s2 [Reg.FTK_STATUS] ∧ s2.fld Reg.FTK_STATUS 31 16 = 0x0409))
    ∧ (¬ locked → 50000 ≤ v.toNat → v.toNat ≤ 2000000 → s.reg Reg.FTK_LANDING ≤ 20000 →
      ∃ t, exec (.ftkConfigWrite 0x100040 v) s = .next t ∧ t.reg 0x100040 = v.toNat
        ∧ t.reg Reg.FTK_BUDGET = 7 * (v.toNat - s.reg Reg.FTK_LANDING - 636) / 4 - (7 * v.toNat + 79999) / 80000)
    ∧ (¬ locked → v.toNat < 50000 → ∃ s2, exec (.ftkConfigWrite 0x100040 v) s
        = .next (State.raise s2 { src := 0x34, code := 0x0409 }) ∧ s2.reg 0x100040 = s.reg 0x100040)

namespace Sys2Proof.Claims

/-- A packet that is for this device and for none of its cores arrives (R382, R538): it leaves the packets in flight, or a
port in service that waits for no replay has received it. -/
def ArrivesAtDevice (s : State) (port : Option PortId) (p : Packet) (s1 : State) : Prop := match port with
  | none => p ∈ s.flight ∧ s1 = { s with flight := s.flight.erase p }
  | some g => s.portUp g.toNat = true ∧ (s.port g.toNat).rxWait = none ∧ p.ddev.toNat = s.deviceId
      ∧ p.frame.toNat = s.frame % 2 ^ 16
      ∧ s1 = s.onPort g.toNat (fun q => { q with
          freed := mapSet 0 q.freed p.type.vc (mapGet 0 q.freed p.type.vc + p.slots) })

/-- Group `g` of the loss-scale groups becomes `x`; every other one is as it was. -/
def GroupIs (s t : State) (g : Nat) (x : LsGroup) : Prop := ∀ k, t.lsGroup k = if k = g then x else s.lsGroup k

end Sys2Proof.Claims

open Sys2Proof.Claims in
/-- Flag messages are held for their round, rounds OR the flags, and the decision moves EXP within its limits. For
every group: an LSFLAG of the current frame for the group of its job is held, and an EXP that differs at the same STEP
is recorded, marked and raised as LS_DIVERGED; one of another frame or for no group is discarded. A round with every
message there ends by OR-ing their flags: the next round begins, or the exchange ends and its result joins the
overflow of the step. A decision after an overflow lowers EXP by 1 but not below MIN_EXP, counts the skip and restarts
CLEAN; after GROW_INTERVAL clean steps it raises EXP by 1 but not above MAX_EXP; else it counts the clean step; STEP
goes up by 1. A decision request is kept with its frame, or refused with LS_DECIDE_REFUSED for a group that is
disabled or has one; CTX_LS_CTRL is written, enabled, refused or disabled as R388 says; an EN of 0 during the exchange
of the group waits for its end (log entry 107). (R66, R381, R382, R384, R385, R387, R388). -/
def Obligations.LossScaleGroupsExchangeAndDecide : Prop :=
  (∀ (s s1 : State) (port : Option PortId) (p : Packet), p.type = .lsflag → ArrivesAtDevice s port p s1 →
    (s.lsGroupFor p.job.toNat = none → exec (.lsflag port p) s = .next s1)
    ∧ (∀ g, s.lsGroupFor p.job.toNat = some g →
      let m : LsMsg := { peer := p.sdev.toNat, round := p.round.toNat, flag := p.flag, late := p.late
                         step := p.step.toNat, exp := p.exp.toNat }
      let x := s.lsGroup g
      let differs := p.step.toNat = s.reg (Reg.CTX_LS_STEP g) ∧ p.exp.toNat ≠ s.fld (Reg.CTX_LS_STATE g) 31 24
      (p.frame.toNat ≠ s.frame % 65536 → exec (.lsflag port p) s = .next s1)
      ∧ (p.frame.toNat = s.frame % 65536 → ¬ differs → ∃ t, exec (.lsflag port p) s = .next t
        ∧ t = { s1 with ls := t.ls } ∧ GroupIs s t g { x with msgs := x.msgs ++ [m] })
      ∧ (p.frame.toNat = s.frame % 65536 → differs → ∃ s2, exec (.lsflag port p) s = .next (State.raise s2
            { src := 0x48, ctx := some (s.fld (Reg.CTX_LS_CTRL g) 27 16), code := 0x0311, inst := g })
        ∧ s2 = { s1 with ls := s2.ls, regs := s2.regs } ∧ GroupIs s s2 g { x with msgs := x.msgs ++ [m], diverged := true }
        ∧ bit (s2.reg (Reg.CTX_LS_STATUS g)) 29 = true ∧ s2.fld (Reg.CTX_LS_STATUS g) 15 0 = 0x0311)))
  ∧ (∀ (s : State) (g : BitVec 4),
    let k := g.toNat
    let x := s.lsGroup k
    let heard := s.lsPeers k |>.map fun d => x.msgs.find? fun m => m.peer == d && m.round == x.round
    let acc := x.acc || heard.any fun m => (m.map (·.flag)).getD false
    ((s.fr.landing ≠ .step2 ∨ x.inStep2 = false) → exec (.lsRoundEnd g) s = .next s)
    ∧ (s.fr.landing = .step2 → x.inStep2 = true → x.gone = true →
      (∃ j, j < 16 ∧ j ≠ k ∧ (s.lsGroup j).inStep2 = true) → ∃ t, exec (.lsRoundEnd g) s = .next t
        ∧ t = { s with ls := t.ls } ∧ GroupIs s t k { x with inStep2 := false, gone := false, stopping := false })
    ∧ (s.fr.landing = .step2 → x.inStep2 = true → x.gone = false → x.stopping = false → (∀ m ∈ heard, m.isSome = true) →
      (x.round + 1 < s.fld (Reg.CTX_LS_CTRL k) 9 8 + 1 → ∃ t, exec (.lsRoundEnd g) s = .next t
        ∧ GroupIs s t k { x with acc := acc, round := x.round + 1 })
      ∧ (s.fld (Reg.CTX_LS_CTRL k) 9 8 + 1 ≤ x.round + 1 → x.request = none →
        (∃ j, j < 16 ∧ j ≠ k ∧ (s.lsGroup j).inStep2 = true) → ∃ t, exec (.lsRoundEnd g) s = .next t
        ∧ t = { s with ls := t.ls }
        ∧ GroupIs s t k { x with acc := acc, round := x.round + 1, inStep2 := false, stepOvf := x.stepOvf || acc })))
  ∧ (∀ (s : State) (g : Nat), g < 16 → NoErrors s →
    let t := s.lsDecide g
    let e := s.fld (Reg.CTX_LS_STATE g) 31 24
    let clean := (s.fld (Reg.CTX_LS_STATE g) 15 0 + 1) % 65536
    let lim (hi lo : Nat) := s.fld (Reg.CTX_LS_LIMITS g) hi lo
    let x := s.lsGroup g
    let expIs (v c : Nat) : Prop := t.fld (Reg.CTX_LS_STATE g) 31 24 = v ∧ t.fld (Reg.CTX_LS_STATE g) 15 0 = c
    (x.stepOvf = true → expIs (max (e - 1) (lim 23 16)) 0
      ∧ t.reg (Reg.CTX_LS_SKIPS g) = plus1 (s.reg (Reg.CTX_LS_SKIPS g)))
    ∧ (x.stepOvf = false → clean = lim 15 0 → expIs (min (e + 1) (lim 31 24)) 0)
    ∧ (x.stepOvf = false → clean ≠ lim 15 0 → expIs e clean)
    ∧ t.reg (Reg.CTX_LS_STEP g) = (s.reg (Reg.CTX_LS_STEP g) + 1) % 2 ^ 32
    ∧ GroupIs s t g { x with stepOvf := false, request := none, missed := false, diverged := false })
  ∧ (∀ (s : State) (g : BitVec 4) (v : W64) (w : W32), s.ready = true →
    let k := g.toNat
    let x := s.lsGroup k
    let on := bit (s.reg (Reg.CTX_LS_CTRL k)) 31
    let en := bit w.toNat 31
    (on = false ∨ x.request ≠ none → ∃ t, exec (.ctxLsDecide g v) s = .next t
        ∧ OnlyRegs (s.dropHalves (Reg.CTX_LS_DECIDE k)) t [Reg.CTX_LS_STATUS k] ∧ t.fld (Reg.CTX_LS_STATUS k) 15 0 = 0x0313)
    ∧ (on = true → x.request = none → ∃ t, exec (.ctxLsDecide g v) s = .next t
        ∧ t = { s.dropHalves (Reg.CTX_LS_DECIDE k) with ls := t.ls }
        ∧ GroupIs s t k { x with request := some (s.serial, v.toNat % 2 ^ 48) })
    ∧ (on = true → en = true → exec (.ctxLsCtrlWrite g w) s = .next s)
    ∧ (on = true → en = false → x.inStep2 = false → ∃ t, exec (.ctxLsCtrlWrite g w) s = .next t
        ∧ t = { s with regs := t.regs, ls := t.ls } ∧ OtherRegs s t [Reg.CTX_LS_CTRL k, Reg.CTX_LS_STATUS k]
        ∧ bit (t.reg (Reg.CTX_LS_CTRL k)) 31 = false
        ∧ GroupIs s t k { x with request := none, msgs := [], stopping := false, gone := false })
    ∧ (on = true → en = false → x.inStep2 = true → ∃ t, exec (.ctxLsCtrlWrite g w) s = .next t ∧ t = { s with ls := t.ls }
        ∧ GroupIs s t k { x with stopping := true })
    ∧ (on = false → en = false → ∃ t, exec (.ctxLsCtrlWrite g w) s = .next t ∧ OnlyRegs s t [Reg.CTX_LS_CTRL k]
        ∧ t.reg (Reg.CTX_LS_CTRL k) = w.toNat &&& 0x0FFF033F)
    ∧ (on = false → en = true → s.feature 7 = false → ∃ t, exec (.ctxLsCtrlWrite g w) s = .next t
        ∧ OnlyRegs s t [Reg.DEV_FEATURE_CTRL] ∧ t.fld Reg.DEV_FEATURE_CTRL 31 16 = 0x0702)
    ∧ (on = false → en = true → s.feature 7 = true → s.lsConfigOk k w.toNat = false →
        ∃ t, exec (.ctxLsCtrlWrite g w) s = .next t ∧ OnlyRegs s t [Reg.CTX_LS_STATUS k]
        ∧ t.fld (Reg.CTX_LS_STATUS k) 15 0 = 0x0310)
    ∧ (on = false → en = true → s.feature 7 = true → s.lsConfigOk k w.toNat = true →
        ∃ t, exec (.ctxLsCtrlWrite g w) s = .next t ∧ OnlyRegs s t [Reg.CTX_LS_CTRL k, Reg.CTX_LS_STEP k]
        ∧ t.reg (Reg.CTX_LS_CTRL k) = w.toNat &&& 0x8FFF033F ∧ t.reg (Reg.CTX_LS_STEP k) = 0))

namespace Sys2Proof.Claims

/-- A ring can take one more completion. -/
def Room (r : Ring) : Prop := r.state ≠ .disabled ∧ r.posted - r.released < r.cqSize ∧ r.held = []

/-- Command `k` of a ring is done: the ring no longer lists it, and its record with the code and the results is the next that
the ring's completion queue receives, as two writes (R494, R495, Table 14.6). -/
def Posted (s t : State) (ring : Nat) (k : Cmd) (code r0 r1 : Nat) : Prop :=
  let r := s.ring ring
  let slot := r.posted % r.cqSize
  (t.ring ring).cmds = r.cmds.filter (fun x => decide (x.id ≠ k.id)) ∧ (t.ring ring).posted = r.posted + 1
  ∧ ∃ a b, let record := recordBytes ⟨k.seq, k.op, BitVec.ofNat 64 (k.at_ 8 8), code, r0, r1, k.noIrq, []⟩ r.posted r.cqSize
      t.out = s.out ++ a ++ .completion ring slot (r.cq + 32 * slot) (record.take 28)
        :: .completion ring slot (r.cq + 32 * slot + 28) (record.drop 28) :: b

/-- A hall that waits for its admissions has nothing to recover from. -/
def CalmHall (s : State) (h : Nat) : Prop :=
  let x := s.hall h
  s.inStep h = false ∧ x.due = none ∧ x.request = none ∧ x.replay = none ∧ x.suspects = [] ∧ x.resolved = []

end Sys2Proof.Claims

open Sys2Proof.Claims in
/-- A landing opens with its snapshot, halls change hands with their memory zeroed, and step 9 arms the next frame.
LANDING_OPEN after a tick of a running device takes the snapshot: its serial is above that of every request accepted
so far, its frame is the current one, and the next tick can come; with no loss-scale group enabled, step 2 is over
when it ends; without a tick it changes nothing. HALL_HANDOVER_DONE of a hall whose handover is ready gives the hall
to the incoming context, and where that context has never run and the outgoing one is not being packaged, every
control processor and sequencer of the hall is at its reset state but for the registers that outlive a kernel, the
counts and the ramp of the arrays, and every byte of its alcoves reads 0. ADMISSIONS with no context ends the landing
on the halls that await none: where none has to recover, each is done and armed for the next frame, with the token
counters of the cores that have reached FRAME_END at 0. EPOCH_ENTRIES_WRITTEN writes the epoch into the entries of the
context's ranges and completes the fence. (R64, R66, R67, R68, R225, R256, R321, R368, R440). -/
def Obligations.LandingsTakeTheirSteps : Prop :=
  (∀ s : State,
    let due := s.fr.ticking = true ∧ s.fr.ticked = true ∧ s.fr.landing ≠ .step2
    (¬ due → exec .landingOpen s = .next s)
    ∧ (due → ∃ t, exec .landingOpen s = .next t ∧ t.fr.ticked = false ∧ t.fr.snap = s.serial + 1 ∧ t.fr.frame = s.frame
      ∧ t.pending = s.pending ∧ ((∀ g, g < 16 → s.lsOn g = false) → (∀ g, g < 16 → (s.lsGroup g).inStep2 = false) →
          t.fr.landing ≠ .step2)))
  ∧ (∀ (s : State) (hall : HallId),
    let h := hall.toNat
    let x := s.hall h
    ((x.stage ≠ .handover ∨ s.inStep h = true ∨ s.spillReady h = false) → exec (.hallHandoverDone hall) s = .next s)
    ∧ (x.stage = .handover → s.inStep h = false → s.spillReady h = true →
      ∃ t, exec (.hallHandoverDone hall) s = .next t ∧ (t.hall h).holder = x.incoming ∧ (t.hall h).incoming = none
        ∧ (t.hall h).stage = .admissions
        ∧ ((∀ c, x.incoming = some c → (s.ctx c).everRan = false) → (∀ c, x.holder = some c → (s.ctx c).pkg = none) →
          ∀ n ∈ hallCores h,
            (∀ o, o < 0x30000 → t.byte (alcoveBase n + o) = 0)
            ∧ t.core n = { cp := { srSeed := (s.core n).cp.srSeed, tepc := (s.core n).cp.tepc, tcause := (s.core n).cp.tcause
                                   tval := (s.core n).cp.tval },
                            seq := { ramp := (s.core n).seq.ramp, cycle := (s.core n).seq.cycle
                                     streamed := (s.core n).seq.streamed, occupied := (s.core n).seq.occupied } })))
  ∧ (∀ s : State, s.power.classReqs = [] →
    (∀ h, h < 16 → (s.hall h).stage = .admissions → CalmHall s h ∧ s.awaited h = []) →
    ∃ t, exec (.admissions none) s = .next t ∧ ∀ h, h < 16 →
      ((s.hall h).stage ≠ .admissions → t.hall h = s.hall h)
      ∧ ((s.hall h).stage = .admissions → (t.hall h).stage = .done ∧ (t.hall h).armedFrame = s.fr.frame + 1
        ∧ (t.hall h).holder = (s.hall h).holder
        ∧ ∀ n, coreHall n = h → s.core n ≠ {} → (t.core n).seq.main.armed = true
          ∧ ((s.core n).seq.reachedEnd = true → TokensAre (t.core n).seq fun _ => 0)))
  ∧ (∀ (s : State) (c : CtxId), (s.ctx c.toNat).step7 = false → exec (.admissions (some c)) s = .next s)
  ∧ (∀ (s : State) (ctx : CtxId),
    let c := ctx.toNat
    let x := s.ctx c
    (x.fenceWriting = [] → exec (.epochEntriesWritten ctx) s = .next s)
    ∧ (∀ cmd f rest k, x.fenceWriting = (cmd, f) :: rest → s.fr.landing = .closed →
      (s.ring cmd.ring).cmds.find? (fun y => y.id == cmd.id) = some k → Room (s.ring cmd.ring) →
      ∃ t, exec (.epochEntriesWritten ctx) s = .next t ∧ t.ctx c = { x with fenceWriting := rest }
        ∧ Posted s t cmd.ring k 0 f 0 ∧ (∀ b, t.byte b = s.byte b)
        ∧ t.mem.pot = s.mem.pot.map fun r =>
            if x.ranges.any (fun y => decide (y.base ≤ r.first ∧ r.first < y.base + y.pages)) then
              { r with entry := BitVec.ofNat 64 (setBits r.entry.toNat 39 24 x.epoch) } else r))

namespace Sys2Proof.Claims

/-- A ring command may be performed: the ring lists command `k` with the SEQ, accepted and not started, with the opcode. -/
def Performs (s : State) (ring : RingId) (seq : W32) (op : Nat) (k : Cmd) : Prop :=
  let r := s.ring ring.toNat
  r.cmds.find? (fun x => x.seq == seq.toNat) = some k ∧ (r.cmds.map (·.id)).Nodup ∧ k.op = op ∧ k.started = false
  ∧ k.accepted = true

/-- The two states differ at most in the rings, the mailboxes, what was sent and the PCIe side. -/
def RingSide (s t : State) : Prop :=
  t = { s with rings := t.rings, mboxes := t.mboxes, out := t.out, pcie := t.pcie }

/-- The command completes with a code and two results, and nothing else in the device changes. -/
def Answered (i : Instr) (s : State) (ring : RingId) (k : Cmd) (code r0 r1 : Nat) : Prop :=
  ∃ t, exec i s = .next t ∧ RingSide s t ∧ Posted s t ring.toNat k code r0 r1

/-- The command ring `c` names has started and waits: the ring lists it still, and nothing has been posted. -/
def Waits (s t : State) (ring : Nat) (k : Cmd) : Prop :=
  (t.ring ring).cmds = (s.ring ring).cmds.map (fun x => if x.id = k.id then { x with started := true } else x)
  ∧ (t.ring ring).posted = (s.ring ring).posted ∧ t.out = s.out

end Sys2Proof.Claims

open Sys2Proof.Claims in
/-- NOP, CREATE_RING, DELETE_RING, VF_CONFIG and EVICT_AREA have their effect and complete, or are refused with their
code. For every command that a ring lists as accepted and whose completion queue has room: NOP completes with code 0;
CREATE_RING of a DISABLED ring of the function with sizes of 2^4 to 2^16 leaves it ENABLED with its queues, vector and
binding; DELETE_RING leaves the named ring DISABLED and reports the number of commands withdrawn; VF_CONFIG that takes
no ring of the PF in use and none of another function names the function's rings, halls, BAR4 base and limit;
EVICT_AREA names the eviction area; each then posts its completion. A ring of another function is refused with
RING_LIMIT, a ring in the wrong state or with bad sizes with RING_STATE, and a VF_CONFIG that names ring 0 with
VF_CONFIG_INVALID. A command that the ring does not list changes nothing. (R477, R478, R487, R488, R494, R504, R447).
-/
def Obligations.RingCommandsCreateAndDeleteRings : Prop :=
  ∀ (s : State) (ring : RingId) (seq : W32) (k : Cmd), Room (s.ring ring.toNat) →
    let own := ring.toNat
    let fn := s.ringFn own
    let n := k.at_ 16 2
    let sizesOk := 4 ≤ k.at_ 20 1 ∧ k.at_ 20 1 ≤ 16 ∧ 4 ≤ k.at_ 21 1 ∧ k.at_ 21 1 ≤ 16
    let bound := bit (k.at_ 22 1) 0
    (Performs s ring seq 0x01 k → Answered (.nop ring seq) s ring k 0 0 0)
    ∧ (Performs s ring seq 0x02 k →
      (s.ringFn n ≠ fn → Answered (.createRing ring seq) s ring k 0x0707 0 0)
      ∧ (s.ringFn n = fn → (s.isAdmin n = true ∨ (s.ring n).state ≠ .disabled ∨ ¬ sizesOk) →
        Answered (.createRing ring seq) s ring k 0x0705 0 0)
      ∧ (s.ringFn n = fn → s.isAdmin n = false → (s.ring n).state = .disabled → sizesOk →
        (bound = true → (s.ctx k.ctx).state ≠ .free
          ∧ (s.rings.filter fun e => decide (e.2.state ≠ .disabled ∧ e.2.bound = some k.ctx)).length < 255) →
        ∃ t, exec (.createRing ring seq) s = .next t ∧ RingSide s t ∧ Posted s t own k 0 0 0
          ∧ t.ring n = { state := .enabled, bound := if bound then some k.ctx else none, sq := k.at_ 24 8, cq := k.at_ 32 8
                         sqLog2 := k.at_ 20 1, cqLog2 := k.at_ 21 1, vector := k.at_ 18 2 }))
    ∧ (Performs s ring seq 0x03 k →
      (s.ringFn n ≠ fn → Answered (.deleteRing ring seq) s ring k 0x0707 0 0)
      ∧ (s.ringFn n = fn → (s.isAdmin n = true ∨ (s.ring n).state = .disabled) →
        Answered (.deleteRing ring seq) s ring k 0x0705 0 0)
      ∧ (s.ringFn n = fn → s.isAdmin n = false → (s.ring n).state ≠ .disabled → n ≠ own →
        ∃ t, exec (.deleteRing ring seq) s = .next t ∧ t.ring n = {}
          ∧ Posted s t own k 0 ((s.ring n).cmds.filter fun c => !c.acted).length 0))
    ∧ (Performs s ring seq 0x04 k →
      let vf := k.at_ 16 1
      let v : VfConfig := { firstRing := k.at_ 18 2, rings := k.at_ 20 2, hallMask := k.at_ 22 2, bar4 := k.at_ 24 8
                            maxContexts := k.at_ 32 2 }
      (v.firstRing = 0 → 0 < v.rings → Answered (.vfConfig ring seq) s ring k 0x0711 0 0)
      ∧ (0 < v.firstRing → v.bar4 % 2 ^ 34 = 0 → s.ctxsOf vf = [] →
        (∀ e ∈ s.rings, v.firstRing ≤ e.1 → e.1 < v.firstRing + v.rings → e.2.state = .disabled ∨ s.ringFn e.1 ≠ 0) →
        (∀ e ∈ s.pcie.vfs, e.1 ≠ vf → ∀ w, e.2 = some w →
          v.firstRing + v.rings ≤ w.firstRing ∨ w.firstRing + w.rings ≤ v.firstRing) →
        ∃ t, exec (.vfConfig ring seq) s = .next t ∧ RingSide s t ∧ Posted s t own k 0 0 0
          ∧ ∀ f, t.vf f = if f = vf then some v else s.vf f))
    ∧ (Performs s ring seq 0x05 k → ∃ t, exec (.evictArea ring seq) s = .next t ∧ RingSide s t ∧ Posted s t own k 0 0 0
        ∧ t.pcie.evictArea = some (k.at_ 16 8, k.at_ 24 8))
    ∧ ((s.ring own).cmds = [] → exec (.nop ring seq) s = .next s ∧ exec (.createRing ring seq) s = .next s
        ∧ exec (.deleteRing ring seq) s = .next s ∧ exec (.vfConfig ring seq) s = .next s ∧ exec (.evictArea ring seq) s = .next s)

open Sys2Proof.Claims in
/-- A doorbell moves its ring, an entry that is fetched takes the next SEQ and is checked, and a bad value puts the
ring in ERROR. For every function and doorbell page: SQ_TAIL in range on an ENABLED ring names the tail; CQ_HEAD in
range on a ring that is not DISABLED releases the records up to the one it names; a value out of range puts the ring
in ERROR and is reported with RING_DOORBELL; a doorbell without a ring of the function is counted and discarded.
COMMAND_FETCH of an ENABLED ring with entries and a link takes the entry under the next SEQ: one that passes the
checks is listed and accepted, one that fails is completed with its code, and a failed read puts the ring in ERROR
with HOST_DMA; so does a failed write of a completion, which a failure on a ring with nothing to fetch stands for (log
entry 75). Where nothing is to be fetched nothing else changes. (R479, R480, R481, R482, R485, R486). -/
def Obligations.DoorbellsAndFetches : Prop :=
  (∀ (s : State) (fn : Fn) (page : W16) (v : W32),
    let f := fn.toNat
    let drops := 2 ^ 32 * f + 0x200038
    (s.pageRing f page.toNat = none → ∀ i ∈ [Instr.sqTail fn page v, Instr.cqHead fn page v],
      ∃ t, exec i s = .next t ∧ OnlyRegs s t [drops] ∧ t.reg drops = plus1 (s.reg drops))
    ∧ (∀ n, s.pageRing f page.toNat = some n →
      let r := s.ring n
      let others (t : State) : Prop := t = { s with rings := t.rings } ∧ ∀ m, m ≠ n → t.ring m = s.ring m
      let bad (i : Instr) : Prop := ∃ s2, exec i s = .next (State.raise s2 { src := 0x42, code := 0x0706, inst := n % 256 })
        ∧ s2 = { s with rings := s2.rings, regs := s2.regs } ∧ s2.ring n = { r with state := .error }
      (r.state = .enabled → v.toNat < 2 ^ r.sqLog2 →
        ∃ t, exec (.sqTail fn page v) s = .next t ∧ others t ∧ t.ring n = { r with sqTail := v.toNat })
      ∧ (r.state = .enabled → 2 ^ r.sqLog2 ≤ v.toNat → bad (.sqTail fn page v))
      ∧ (r.state ≠ .enabled → ∃ t, exec (.sqTail fn page v) s = .next t ∧ t.reg drops = plus1 (s.reg drops))
      ∧ (r.state ≠ .disabled → r.held = [] → v.toNat < 2 ^ r.cqLog2 →
        ∃ t, exec (.cqHead fn page v) s = .next t ∧ others t ∧ t.ring n = { r with
          released := min r.posted (r.released + (v.toNat + 2 ^ r.cqLog2 - r.released % 2 ^ r.cqLog2) % 2 ^ r.cqLog2) })
      ∧ (r.state = .enabled → 2 ^ r.cqLog2 ≤ v.toNat → bad (.cqHead fn page v))))
  ∧ (∀ (s : State) (ring : RingId) (bs : List Byte),
    let n := ring.toNat
    let q := s.ring n
    let e := entryOf bs
    let due := q.state = .enabled ∧ s.pcie.linkUp = true ∧ q.fetched ≠ q.sqTail
    let k : Cmd := { seq := q.seqNext, id := s.serial, entry := e }
    let broken : Prop := ∃ s2, exec (.commandFetch ring .failed) s = .next (State.raise s2 { src := 0x42, code := 0x070D, inst := n % 256 })
        ∧ (s2.ring n).state = .error ∧ (s2.ring n).cmds = q.cmds
    (¬ due → exec (.commandFetch ring (.data bs)) s = .next s)
    ∧ (¬ due → (q.state ≠ .enabled ∨ s.pcie.linkUp = false ∨ q.posted = 0) → exec (.commandFetch ring .failed) s = .next s)
    ∧ (q.state = .enabled → s.pcie.linkUp = true → q.fetched = q.sqTail → q.posted ≠ 0 → broken)
    ∧ (due → broken)
    ∧ (due → bs.length = 64 → s.entryCheck n e = none → (∀ c ∈ q.cmds, c.id < s.serial ∧ (c.order = false ∨ c.started = true)) →
        k.order = false → ∃ t, exec (.commandFetch ring (.data bs)) s = .next t
        ∧ t = { s with rings := t.rings, serial := s.serial + 2, mboxes := t.mboxes }
        ∧ t.ring n = { q with
            fetched := (q.fetched + 1) % 2 ^ q.sqLog2, seqNext := (q.seqNext + 1) % 2 ^ 32
            cmds := q.cmds ++ [{ k with serial := s.serial + 1, accepted := true }] })
    ∧ (∀ code, due → bs.length = 64 → s.entryCheck n e = some code → (∀ c ∈ q.cmds, c.id < s.serial) → Room q →
        ∃ t, exec (.commandFetch ring (.data bs)) s = .next t
        ∧ t = { s with rings := t.rings, serial := s.serial + 1, mboxes := t.mboxes, out := t.out, pcie := t.pcie }
        ∧ (t.ring n).cmds = q.cmds ∧ (t.ring n).posted = q.posted + 1 ∧ (t.ring n).seqNext = (q.seqNext + 1) % 2 ^ 32
        ∧ ∃ a b, let slot := q.posted % q.cqSize
            let record := recordBytes ⟨q.seqNext, k.op, BitVec.ofNat 64 (k.at_ 8 8), code, 0, 0, k.noIrq, []⟩ q.posted q.cqSize
            t.out = s.out ++ a ++ .completion n slot (q.cq + 32 * slot) (record.take 28)
              :: .completion n slot (q.cq + 32 * slot + 28) (record.drop 28) :: b))

open Sys2Proof.Claims in
/-- Admin rings are enabled after the lock and disabled from any state, and a query shows a ring of the function. For
every function, with the registers answering: ADMIN_RING_ENABLE after the feature lock, for a usable function whose
admin ring is DISABLED, with sizes of 2^4 to 2^16 and a vector of the function, leaves the ring ENABLED with the queue
addresses of its registers and EN = 1, and is refused with RING_STATE before the lock; ADMIN_RING_DISABLE leaves it
DISABLED with EN = 0. RING_QUERY followed by RING_INFO_VALID shows the state, the binding, the commands that are
listed and the next SEQ of a ring of the function, and 0 for another. MSIX_UNMASK sends the pending message of its
vector. BAR4_RESIZE sets the size and aligns the base below. (R470, R474, R478, R502, R503, R691, 14 Table 14.11). -/
def Obligations.AdminRingsAndQueries : Prop :=
  (∀ (s : State) (fn : Fn) (v : W32), s.ready = true →
    let f := fn.toNat
    let w := v.toNat
    let base := 2 ^ 32 * f + 0x200000
    let (sq, cq, vec) := (w % 32, (w / 2 ^ 8) % 32, (w / 2 ^ 16) % 2 ^ 11)
    (s.locked = false → ∃ t, exec (.adminRingEnable fn v) s = .next t ∧ OnlyRegs s t [base]
        ∧ t.fld base 31 16 = 0x0705)
    ∧ (∀ n, s.locked = true → s.fnUsable f = true → s.adminRing f = some n → (s.ring n).state = .disabled →
        4 ≤ sq → sq ≤ 16 → 4 ≤ cq → cq ≤ 16 → (f = 0 ∨ vec < 128) →
        ∃ t, exec (.adminRingEnable fn v) s = .next t ∧ t = { s with rings := t.rings, regs := t.regs }
          ∧ OtherRegs s t [base + 0x18] ∧ t.reg (base + 0x18) = 2 ^ 31 + 2 ^ 16 * vec + 2 ^ 8 * cq + sq
          ∧ (∀ m, m ≠ n → t.ring m = s.ring m)
          ∧ t.ring n = { state := .enabled, sq := s.reg (base + 8), cq := s.reg (base + 0x10), sqLog2 := sq, cqLog2 := cq
                         vector := vec })
    ∧ (∀ n, s.adminRing f = some n → ∃ t, exec (.adminRingDisable fn v) s = .next t ∧ t.ring n = {}
        ∧ t.reg (base + 0x18) = 2 ^ 16 * vec + 2 ^ 8 * cq + sq ∧ t.cores = s.cores))
  ∧ (∀ (s : State) (fn : Fn) (ring : RingId),
    let f := fn.toNat
    let n := ring.toNat
    let r := s.ring n
    (s.ready = true → ∃ t, exec (.ringQuery fn ring) s = .next t ∧ t = { s with pcie := t.pcie }
      ∧ mapGet none t.pcie.ringQueries f = some n ∧ ∀ g, g ≠ f → mapGet none t.pcie.ringQueries g = mapGet none s.pcie.ringQueries g)
    ∧ (mapGet none s.pcie.ringQueries f = none → exec (.ringInfoValid fn) s = .next s)
    ∧ (mapGet none s.pcie.ringQueries f = some n → r.seqNext < 2 ^ 32 → (∀ c, r.bound = some c → c < 4096) →
      ∃ t, exec (.ringInfoValid fn) s = .next t ∧ t = { s with pcie := t.pcie, regs := t.regs }
      ∧ OtherRegs s t [2 ^ 32 * f + 0x200030] ∧ mapGet none t.pcie.ringQueries f = none
      ∧ t.reg (2 ^ 32 * f + 0x200030) = if s.ringFn n ≠ f then 0 else
          2 ^ 62 * (match r.state with | .disabled => 0 | .enabled => 1 | .error => 2)
          + 2 ^ 61 * (if r.bound.isSome then 1 else 0) + 2 ^ 48 * r.bound.getD 0 + 2 ^ 32 * min r.cmds.length 65535 + r.seqNext))
  ∧ (∀ (s : State) (fn : Fn) (vector : BitVec 11), s.ready = true → fn.toNat ≤ 16 →
      (fn = 0 ∨ (vector.toNat < 128 ∧ s.pcie.vfEnable = true)) →
    let k := 4096 * fn.toNat + vector.toNat
    ∃ t, exec (.msixUnmask fn vector) s = .next t ∧ t = { s with pcie := t.pcie, out := t.out }
      ∧ (∀ j, mapGet msixDefault t.pcie.msix j = if j = k then (mapGet msixDefault s.pcie.msix k) &&& ~~~(1#128 <<< 96)
          else mapGet msixDefault s.pcie.msix j)
      ∧ (k ∈ s.pcie.pba → s.pcie.linkUp = true → t.pcie.pba = s.pcie.pba.filter (fun j => decide (j ≠ k))
          ∧ t.out = s.out ++ [.msix fn.toNat vector.toNat (mapGet msixDefault t.pcie.msix k)])
      ∧ (k ∉ s.pcie.pba → t.out = s.out ∧ t.pcie.pba = s.pcie.pba))
  ∧ (∀ (s : State) (log2 : BitVec 6), (log2.toNat < 30 ∨ 40 < log2.toNat → exec (.bar4Resize log2) s = .next s)
    ∧ (30 ≤ log2.toNat → log2.toNat ≤ 40 → ∃ t, exec (.bar4Resize log2) s = .next t
        ∧ t = { s with pcie := t.pcie, regs := t.regs } ∧ t.pcie.bar4Log2 = log2.toNat ∧ OtherRegs s t [Reg.HST_BAR4_BASE]
        ∧ t.reg Reg.HST_BAR4_BASE = s.reg Reg.HST_BAR4_BASE - s.reg Reg.HST_BAR4_BASE % 2 ^ log2.toNat))

open Sys2Proof.Claims in
/-- A PF reset, PERST_N and a link loss reset the host interface, VF events the virtual functions, and a link comes up
as reported. PF_FLR, PERST_N and a LINK_LOSS with an ENABLED ring leave every ring DISABLED, every mailbox empty, no
MSI-X entry and no pending bit, VF Enable clear, and the PF's HST registers at their reset values, a link loss
recorded and counted; where no virtual function has a context, no context changes state and no core, hall or byte of
memory changes. VF_FLR disables the rings of its function and frees its contexts that hold no hall; VF_ENABLE_CLEAR
does so for every virtual function; VF_ENABLE_SET needs the feature. FEATURE_LOCK fixes an accepted vector that is
offered, and refuses one that is not, or a second lock. LINK_UP shows the width and the speed. (R473, R475, R503,
R506, R507, R508, R510). -/
def Obligations.HostInterfaceResets : Prop :=
  (∀ s : State,
    let clean (t : State) : Prop := (∀ r, t.ring r = {}) ∧ t.mboxes = [] ∧ t.pcie.msix = [] ∧ t.pcie.pba = []
      ∧ t.pcie.vfEnable = false
    let kept (t : State) : Prop := (∀ e ∈ s.ctxs, e.2.fn = 0) → (∀ c, (t.ctx c).state = (s.ctx c).state)
      ∧ t.cores = s.cores ∧ t.halls = s.halls ∧ t.mem.cells = s.mem.cells
    (∃ t, exec .pfFlr s = .next t ∧ clean t ∧ kept t
      ∧ ∀ a, 0x200000 ≤ a → a < 0x300000 → t.reg a = resetOf a % 2 ^ 64)
    ∧ (∃ t, exec .perstN s = .next t ∧ clean t ∧ kept t ∧ t.pcie.perst = true)
    ∧ (s.pcie.linkUp = false → exec .linkLoss s = .next s)
    ∧ (s.pcie.linkUp = true → (∀ e ∈ s.rings, e.2.state ≠ .enabled) → ∃ t, exec .linkLoss s = .next t
        ∧ t = { s with pcie := t.pcie } ∧ t.pcie.linkUp = false)
    ∧ (s.pcie.linkUp = true → (∃ e ∈ s.rings, e.2.state = .enabled) →
        ∃ s2, exec .linkLoss s = .next (State.raise s2 { src := 0x3F, code := 0x0710 }) ∧ clean s2 ∧ kept s2
          ∧ s2.pcie.linkUp = false ∧ s2.fld 0x200000 31 16 = 0x0710 ∧ s2.reg Reg.HST_LINK_LOSSES = 1))
  ∧ (∀ (s : State) (w sp : BitVec 4), (w.toNat ∈ [1, 2, 4, 8] → 1 ≤ sp.toNat → sp.toNat ≤ 5 →
      exec (.linkUp w sp) s = .next { s with pcie := { s.pcie with
        linkUp := true, perst := false, width := w.toNat, speed := sp.toNat } })
    ∧ (w.toNat ∉ [1, 2, 4, 8] → exec (.linkUp w sp) s = .next s))
  ∧ (∀ (s : State) (vf : Fn),
    let f := vf.toNat
    (s.pcie.vfEnable = false → exec (.vfFlr vf) s = .next s)
    ∧ (s.pcie.vfEnable = true → 1 ≤ f → f ≤ 16 → ∃ t, exec (.vfFlr vf) s = .next t
      ∧ (∀ r, s.ringFn r = f → t.ring r = {})
      ∧ ∀ c, (s.ctx c).fn = f → (s.ctx c).state ≠ .free → s.heldBy c = [] → t.ctx c = {}))
  ∧ (∀ s : State, (s.feature 0 = true → exec .vfEnableSet s = .next { s with pcie := { s.pcie with vfEnable := true } })
    ∧ (s.feature 0 = false → ∃ t, exec .vfEnableSet s = .next t ∧ OnlyRegs s t [Reg.DEV_FEATURE_CTRL]
        ∧ t.fld Reg.DEV_FEATURE_CTRL 31 16 = 0x0702)
    ∧ (∃ t, exec .vfEnableClear s = .next t ∧ t.pcie.vfEnable = false ∧ (∀ r, s.ringFn r ≠ 0 → t.ring r = {})
        ∧ ∀ c, (s.ctx c).fn ≠ 0 → (s.ctx c).state ≠ .free → s.heldBy c = [] → t.ctx c = {})
    ∧ (s.ready = true → s.locked = true → ∃ t, exec .featureLock s = .next t ∧ OnlyRegs s t [Reg.DEV_FEATURE_CTRL]
        ∧ t.fld Reg.DEV_FEATURE_CTRL 31 16 = 0x0704)
    ∧ (s.ready = true → s.locked = false → s.reg Reg.DEV_FEATURE_ACCEPT1 ≠ 0 → ∃ t, exec .featureLock s = .next t
        ∧ OnlyRegs s t [Reg.DEV_FEATURE_CTRL] ∧ t.fld Reg.DEV_FEATURE_CTRL 31 16 = 0x0703 ∧ t.locked = false)
    ∧ (s.ready = true → s.locked = false → s.reg Reg.DEV_FEATURE_ACCEPT1 = 0 →
        (∀ b, bit (s.reg Reg.DEV_FEATURE_ACCEPT0) b = true → bit (s.reg Reg.DEV_FEATURE_OFFER0) b = true) →
        ∃ t, exec .featureLock s = .next t ∧ t.locked = true ∧ t.cores = s.cores ∧ t.mem = s.mem
          ∧ t.reg Reg.DEV_FEATURE_ACCEPT0 = s.reg Reg.DEV_FEATURE_ACCEPT0))

namespace Sys2Proof.Claims

/-- Every access of the PF to `n` bytes of HBM from address `a` passes its check (R317), and the address space holds them. -/
def PfMayAccess (s : State) (a n : Nat) : Prop :=
  a + n ≤ 2 ^ 40 ∧ ∀ b, a ≤ b → b < a + n → s.chState (channelOf b) = 2 ∧ reservedPage (b / 65536) = false

/-- The request of a command joins those of its context that wait for a landing; nothing else but the ring's listing changes. -/
def Requested (i : Instr) (s : State) (ring : RingId) (k : Cmd) (r : Req) : Prop :=
  ∃ t, exec i s = .next t ∧ t = { s with rings := t.rings, ctxs := t.ctxs } ∧ Waits s t ring.toNat k
    ∧ (∀ c, c ≠ k.ctx → t.ctx c = s.ctx c)
    ∧ t.ctx k.ctx = { s.ctx k.ctx with reqs := (s.ctx k.ctx).reqs ++ [r] }

/-- No page of a region belongs to anyone. -/
def EmptyRegion (s : State) (h : Nat) : Prop :=
  s.regionOnline h = true ∧ ∀ r ∈ s.mem.pot, r.first + r.count ≤ 2 ^ 20 * h ∨ 2 ^ 20 * (h + 1) ≤ r.first

end Sys2Proof.Claims

open Sys2Proof.Claims in
/-- CREATE_CONTEXT makes a LOADING or READY context with what it asked for or refuses in order, DESTROY_CONTEXT frees
it. For every CREATE_CONTEXT that a ring of the PF lists as accepted, with a free context id: a mask that is empty or
names an offline hall is refused with CTX_HALLS_INVALID, a ninth KEEP_MEMORY with KEEP_MEMORY_LIMIT; otherwise, for a
context without a pool, its completion has code 0 and the id of a context that was FREE, and that context is LOADING,
or READY with INIT_SHARDS 0, with the priority, tag, epoch and halls asked for, where the regions of its halls are
empty; no other context changes state. DESTROY_CONTEXT of a context that holds no hall leaves it FREE with everything
at its reset value, and the rings bound to it DISABLED once its completion is posted; one that holds a hall is asked
for at the next landing. (R427, R428, R429, R430, R489, R490, 13 Table 13.2). -/
def Obligations.ContextsAreCreatedAndDestroyed : Prop :=
  ∀ (s : State) (ring : RingId) (seq : W32) (k : Cmd), Room (s.ring ring.toNat) → s.ringFn ring.toNat = 0 →
    let own := ring.toNat
    let mask := k.at_ 18 2
    let keep := bit (k.at_ 16 1) 7
    (Performs s ring seq 0x10 k → (∃ c, c < 4096 ∧ (s.ctx c).state = .free) →
      ((mask = 0 ∨ ∃ h, h < 16 ∧ bit mask h = true ∧ s.online h = false) →
        ∃ t, exec (.createContext ring seq) s = .next t ∧ Posted s t own k 0x0624 0 0 ∧ t.ctxs = s.ctxs)
      ∧ (s.maskOk mask = true → keep = true → 8 ≤ s.keepers →
        ∃ t, exec (.createContext ring seq) s = .next t ∧ Posted s t own k 0x0626 0 0 ∧ t.ctxs = s.ctxs)
      ∧ (s.maskOk mask = true → (keep = true → s.keepers < 8) → bit (k.at_ 17 1) 0 = false →
        (∀ h, h < 16 → bit mask h = true → EmptyRegion s h) →
        ∃ t id, exec (.createContext ring seq) s = .next t ∧ Posted s t own k 0 id 0 ∧ id < 4096 ∧ (s.ctx id).state = .free
          ∧ (t.ctx id).state = (if k.at_ 24 2 = 0 then .ready else .loading) ∧ (t.ctx id).fn = 0
          ∧ (t.ctx id).prio = k.at_ 16 1 % 8 ∧ (t.ctx id).keepMemory = keep ∧ (t.ctx id).job = k.at_ 20 2
          ∧ (t.ctx id).epoch = k.at_ 22 2 ∧ (t.ctx id).initShards = k.at_ 24 2 ∧ (t.ctx id).named = mask
          ∧ (t.ctx id).pool = none ∧ ∀ c, c ≠ id → t.ctx c = s.ctx c))
    ∧ (Performs s ring seq 0x11 k → (s.ctx k.ctx).state ≠ .free →
      (s.heldBy k.ctx = [] → ∃ t, exec (.destroyContext ring seq) s = .next t ∧ t.ctx k.ctx = {} ∧ t.heldBy k.ctx = []
        ∧ ((s.ring own).cmds = [k] → ∀ r, (s.ring r).bound = some k.ctx → t.ring r = {}))
      ∧ (s.heldBy k.ctx ≠ [] → (s.ctx k.ctx).state ≠ .suspect → Requested (.destroyContext ring seq) s ring k
          { cmd := some ⟨own, k.id⟩, serial := s.serial, target := 0, kind := .destroy }))

open Sys2Proof.Claims in
/-- RANGE_CREATE gives zeroed pages of its own, RANGE_REMOVE frees them, and requests for landings wait. For every
command of a context in a state that takes work: RANGE_CREATE in a region that is online and whose first pages are
free adds a DATA range of the length and the permissions asked for to the end of the list, every page of it owned by
the context with KIND DATA and every byte 0, and completes with its address; an offline region is refused with
CTX_NO_MEMORY and a 65th range with CTX_RANGES. RANGE_REMOVE of a DATA range that holds no image of the kernel, from a
context that holds no hall, takes it from the list, and one that names no range is refused with CTX_RANGES. HALL_SET,
FENCE_COMMAND, DETACH, EXPORT, and RANGE_REMOVE from a context that holds a hall, join the requests of the context
with their target frame; a fence with another epoch than the next is refused with EPOCH_INVALID. (R307, R320, R431,
R432, R437, R461, R594, R366). -/
def Obligations.RangesAndHallsOfContexts : Prop :=
  ∀ (s : State) (ring : RingId) (seq : W32) (k : Cmd), Room (s.ring ring.toNat) → s.ringFn ring.toNat = 0 →
    let own := ring.toNat
    let c := k.ctx
    let x := s.ctx c
    let n := k.at_ 16 4
    let region := k.at_ 20 1
    let me : CmdRef := ⟨own, k.id⟩
    let running := x.state = .ready ∨ x.state = .running ∨ x.state = .preempted
    x.state.takesWork = true →
    (Performs s ring seq 0x12 k →
      (region < 16 → s.regionOnline region = false → Answered (.rangeCreate ring seq) s ring k 0x0622 0 0)
      ∧ (region < 16 → s.regionOnline region = true → 64 ≤ x.ranges.length →
        Answered (.rangeCreate ring seq) s ring k 0x0623 0 0)
      ∧ (region < 16 → s.regionOnline region = true → x.ranges.length < 64 → 0 < n → n ≤ 0xFFE00 →
        s.runFree (2 ^ 20 * region) n = true → x.epoch < 65536 →
        ∃ t p, exec (.rangeCreate ring seq) s = .next t ∧ Posted s t own k 0 (65536 * p) 0
          ∧ t.ctx c = { x with ranges := x.ranges ++ [⟨p, n, 1, bit (k.at_ 21 1) 0, bit (k.at_ 21 1) 1⟩] }
          ∧ p / 2 ^ 20 = region ∧ (p + n - 1) / 2 ^ 20 = region
          ∧ (∀ q, p ≤ q → q < p + n → bits (t.potEntry q) 51 40 = c ∧ bits (t.potEntry q) 57 54 = 1)
          ∧ ∀ b, t.byte b = if 65536 * p ≤ b ∧ b < 65536 * (p + n) then 0 else s.byte b))
    ∧ (Performs s ring seq 0x13 k →
      (x.ranges.find? (fun r => 65536 * r.base == k.at_ 16 8) = none → Answered (.rangeRemove ring seq) s ring k 0x0623 0 0)
      ∧ (∀ r, x.ranges.find? (fun r => 65536 * r.base == k.at_ 16 8) = some r → x.holdsImage r = false →
        (s.heldBy c = [] → r.kind = 1 → ∃ t, exec (.rangeRemove ring seq) s = .next t ∧ Posted s t own k 0 0 0
          ∧ t.ctx c = { x with ranges := x.ranges.filter fun y => decide (y.base ≠ r.base) })
        ∧ (s.heldBy c ≠ [] → Requested (.rangeRemove ring seq) s ring k
            { cmd := some me, serial := k.serial, target := 0, kind := .rangeRemove r.base })))
    ∧ (Performs s ring seq 0x14 k → x.state ≠ .suspect →
      (s.maskOk (k.at_ 16 2) = false → Answered (.hallSet ring seq) s ring k 0x0624 0 0)
      ∧ (s.maskOk (k.at_ 16 2) = true → (∀ h, h < 16 → bit (k.at_ 16 2) h = true → ∃ r ∈ x.reserves, r.hall = h) →
        Requested (.hallSet ring seq) s ring k
          { cmd := some me, serial := k.serial, target := k.at_ 24 8, kind := .hallSet (k.at_ 16 2) }))
    ∧ (Performs s ring seq 0x22 k →
      (k.at_ 16 2 ≠ (x.epoch + 1) % 65536 → Answered (.fenceCommand ring seq) s ring k 0x0504 0 0)
      ∧ (k.at_ 16 2 = (x.epoch + 1) % 65536 → (∀ r ∈ x.reqs, ∀ e, r.kind ≠ .fence e) →
        Requested (.fenceCommand ring seq) s ring k
          { cmd := some me, serial := k.serial, target := k.at_ 24 8, kind := .fence (k.at_ 16 2) }))
    ∧ (Performs s ring seq 0x16 k →
      (running → Requested (.detach ring seq) s ring k { cmd := some me, serial := k.serial, target := k.at_ 40 8
                                                         kind := .detach (bit (k.at_ 16 1) 0) (k.at_ 18 2) (k.at_ 24 8) (k.at_ 32 8) })
      ∧ (¬ running → Answered (.detach ring seq) s ring k 0x0620 0 0))
    ∧ (Performs s ring seq 0x17 k → running →
      Requested (.exportCommand ring seq) s ring k { cmd := some me, serial := k.serial, target := k.at_ 40 8
                                                     kind := .exportTo (bit (k.at_ 16 1) 0) (k.at_ 18 2) (k.at_ 24 8) (k.at_ 32 8) })

open Sys2Proof.Claims in
/-- COPY moves the bytes it names, SUBMIT_KERNEL submits a checked image, and packages complete or create a context.
For every command that a ring of the PF lists as accepted: COPY to the device, with its data, writes exactly its
bytes, COPY from the device sends exactly the bytes at its address, and a failed host access completes with HOST_DMA.
SUBMIT_KERNEL of an image in a readable DATA range that keeps Tables 14.5 and 17.5 becomes the submitted kernel of its
context with its argument, target and live ranges, and a second one is refused with CTX_STATE_INVALID. A package that
has been written completes its command with its length and frame. ATTACH of a package that passes its checks completes
with the id of a context that was FREE and is READY with the tag, priority and epoch of the package, or without room
with CTX_NO_MEMORY; with HOST_DMA where the package cannot be read or the new bases cannot be written; a package that
breaks Table 13.8 is refused with ATTACH_INCOMPATIBLE. (R438, R461, R463, R491, R492, R493, 14 Table 14.5, 13 Table
13.8). -/
def Obligations.CopiesKernelsAndPackages : Prop :=
  (∀ (s : State) (ring : RingId) (seq : W32) (k : Cmd) (bs : List Byte), Room (s.ring ring.toNat) → s.ringFn ring.toNat = 0 →
    let own := ring.toNat
    let a := k.at_ 32 8
    let n := k.at_ 40 8
    let x := s.ctx k.ctx
    let img := k.at_ 16 8
    let len := k.at_ 24 4
    let body := s.bytesAt img len
    (Performs s ring seq 0x18 k → PfMayAccess s a n → NoErrors s →
      (bit (k.at_ 16 1) 0 = true → bs.length = n → ∃ t, exec (.copy ring seq (.data bs)) s = .next t ∧ Posted s t own k 0 0 0
        ∧ (∀ b, t.byte b = if a ≤ b ∧ b < a + n then bs.getD (b - a) 0 else s.byte b) ∧ t.cores = s.cores ∧ t.regs = s.regs)
      ∧ (bit (k.at_ 16 1) 0 = false → ∃ t, exec (.copy ring seq (.data bs)) s = .next t ∧ Posted s t own k 0 0 0
        ∧ t.out[s.out.length]? = some (.hostWrite (k.at_ 24 8) (s.bytesAt a n)) ∧ RingSide s t)
      ∧ (∃ t, exec (.copy ring seq .failed) s = .next t ∧ Posted s t own k 0x070D 0 0 ∧ SameBytes s t))
    ∧ (Performs s ring seq 0x20 k → x.state.takesWork = true →
      (x.submitted ≠ none → Answered (.submitKernel ring seq) s ring k 0x0620 0 0)
      ∧ (x.submitted = none → (∀ m ∈ x.models, m.2.evicted = none) →
        (∃ r, x.rangeAt img len = some r ∧ r.kind = 1 ∧ r.rd = true) → PfMayAccess s img len → NoErrors s →
        imageOk body x.hallList.length = true → liveOk (imageLive body) = true →
        ∃ t kn, exec (.submitKernel ring seq) s = .next t ∧ t = { s with rings := t.rings, ctxs := t.ctxs }
          ∧ Waits s t own k ∧ t.ctx k.ctx = { x with submitted := some kn } ∧ kn.cmd = ⟨own, k.id⟩ ∧ kn.image = img
          ∧ kn.bytes = len ∧ kn.arg.toNat = k.at_ 28 4 ∧ kn.target = k.at_ 32 8 ∧ kn.live = imageLive body
          ∧ kn.replayable = (leField body 8 1 == 1)))
    ∧ (Performs s ring seq 0x15 k →
      (∀ w, bs.length < 128 → Answered (.attach ring seq (.data bs w)) s ring k 0x0641 0 0)
      ∧ (∃ t, exec (.attach ring seq .failed) s = .next t ∧ Posted s t own k 0x070D 0 0)
      ∧ (let halls := (List.range (leField bs 6 1)).map fun i => bits (k.at_ 40 8) (4 * i + 3) (4 * i)
         let recs := pkgRecords bs
         packageOk bs (packagePool bs) = true → halls.Nodup → (bit (leField bs 7 1) 7 = true → s.keepers < 8) →
         bs.length = k.at_ 24 8 → (bs.drop 64).take 32 = sha256 (bs.take 64 ++ recs.flatten) →
         (∀ e ∈ recs.zip (contentsFrom bs recs (128 + 64 * leField bs 12 2)), e.1.drop 32 = sha256 e.2) →
         (∃ c, c < 4096 ∧ (s.ctx c).state = .free) →
         (∃ t code, exec (.attach ring seq (.data bs false)) s = .next t ∧ Posted s t own k code 0 0
           ∧ (code = 0x070D ∨ code = 0x0622))
         ∧ ∃ t code id, exec (.attach ring seq (.data bs true)) s = .next t ∧ Posted s t own k code (if code = 0 then id else 0) 0
           ∧ (code = 0 ∨ code = 0x0622) ∧ (code = 0 → id < 4096 ∧ (s.ctx id).state = .free ∧ (t.ctx id).state = .ready
             ∧ (t.ctx id).job = leField bs 8 2 ∧ (t.ctx id).epoch = leField bs 10 2 ∧ (t.ctx id).prio = leField bs 7 1 % 8))))
  ∧ (∀ (s : State) (ctx : CtxId) (ok : Bool),
    let x := s.ctx ctx.toNat
    (x.pkg = none → exec (.packageWritten ctx ok) s = .next s)
    ∧ (∀ p k, x.pkg = some p → p.sent = true → (s.ring p.cmd.ring).cmds.find? (fun y => y.id == p.cmd.id) = some k →
      Room (s.ring p.cmd.ring) → ∃ t, exec (.packageWritten ctx ok) s = .next t ∧ t.ctx ctx.toNat = { x with pkg := none }
        ∧ (ok = true → Posted s t p.cmd.ring k 0 p.bytes p.frame) ∧ (ok = false → Posted s t p.cmd.ring k 0x070D 0 0)))

namespace Sys2Proof.Claims

/-- No traffic generator runs in the channel that a register belongs to: a read of one that runs finds the run further on (log entry
113). -/
def NoRunAt (s : State) (a : Nat) : Prop :=
  0x2010000 ≤ a → a < 0x2020000 → mapGet none s.mem.tg ((a - 0x2010000) / 0x100) = none

/-- The registers whose write stores the writable bits and does nothing else. -/
def storesOnly (a : Nat) : Prop :=
  a ∈ [Reg.HST_ADMIN_SQ, Reg.HST_ADMIN_CQ, Reg.HST_EVT_VECTOR, Reg.FLT_CTRL, Reg.RST_CTRL, Reg.RST_DUMP_HOST, Reg.CTX_SEL,
       Reg.CTX_GEN_SEL, Reg.CTX_MODEL_SEL]
  ∨ (∃ h, h < 16 ∧ a = Reg.HAL_NUMTRAP_CTRL h)
  ∨ ∃ c, c < 256 ∧ a ∈ [Reg.MEM_TG_SEED c, Reg.MEM_TG_START c, Reg.MEM_TG_END c, Reg.MEM_TG_OPS c, Reg.MEM_TG_USER c]

/-- The counters of access RC that a register of their own holds. -/
def ownCount (a : Nat) : Prop := a ≠ Reg.CTX_PREEMPTS ∧ ¬ (Reg.CTX_GEN_STALLS ≤ a ∧ a < Reg.CTX_GEN_STALLS + 16)

/-- The two states differ at most in registers, in the halves latched and held, and in what was sent. -/
def BusSide (s t : State) : Prop :=
  t = { s with regs := t.regs, latchedHigh := t.latchedHigh, heldLow := t.heldLow, out := t.out }

/-- A read of the PF answers with a value. -/
def ReadsAs (s t : State) (off v : Nat) : Prop := t.out = s.out ++ [.readData 0 off (BitVec.ofNat 64 v)]

end Sys2Proof.Claims

open Sys2Proof.Claims in
/-- Register reads, writes and accesses by halves do what the access code of the register says; accesses that break
R13 do nothing. For every register of the PF from READY on: a read of the whole register answers with its value and
changes none, but that one of access RC whose count it holds itself then holds what an event of the same cycle counts;
a write of the whole register changes none of access RO, clears in one of access RW1C exactly the bits written as 1
but for those that an event of the same cycle sets, and sets in a register that only stores exactly its writable bits.
Of a 64-bit register, a read of the low half answers with it and latches the high half, a read of the high half
answers with the latched half, or with the current one when none is latched, a write of the low half is only held, and
a write of the high half applies it with the low half held, or the present one. A read of a mailbox answers with it
and advances READS to at most 63, unless TAG is EMPTY. A 1- or 2-byte access inside a register is discarded, or reads
0, and is reported; one where no register is reads 0 and writes nothing. (R13, R14, R15, R16, R17, R18, R19, R683,
R500, 00 Table 0.4). -/
def Obligations.RegisterAccessesOfThePf : Prop :=
  ∀ (s : State), s.ready = true →
  (∀ (off : W32) (r : RegRow) (v same : W64) (w : W32), regRow off.toNat = some r →
    let a := off.toNat
    (isMbox a = false → NoRunAt s a →
      (∃ t, exec (.rcRead 0 off same) s = .next t ∧ ReadsAs s t a (s.view a) ∧ (r.access ≠ .rc → BusSide s t ∧ t.regs = s.regs)
        ∧ (r.access = .rc → ownCount a → BusSide s t ∧ OtherRegs s t [a] ∧ t.reg a = same.toNat % 2 ^ (8 * r.width)))
      ∧ (r.width = 8 → ∃ t, exec (.regLowHalfRead 0 off) s = .next t ∧ BusSide s t ∧ ReadsAs s t a (s.view a % 2 ^ 32)
        ∧ (∀ b, t.latched b = if b = a then some (s.view a / 2 ^ 32 % 2 ^ 32) else s.latched b) ∧ t.heldLow = s.heldLow
        ∧ OtherRegs s t [a] ∧ (t.reg a = if r.access = .rc then 0 else s.reg a)))
    ∧ (r.access = .ro → ∃ t, exec (.registerWrite 0 off v) s = .next t ∧ BusSide s t ∧ t.regs = s.regs ∧ t.out = s.out)
    ∧ (r.access = .rw1c → ∃ t, exec (.rw1cWrite 0 off v same) s = .next t ∧ BusSide s t ∧ t.out = s.out ∧ OtherRegs s t [a]
      ∧ ∀ i, i < 8 * r.width → bit (t.reg a) i = if bit r.w1c i = true then bit same.toNat i || (bit (s.reg a) i && !bit v.toNat i)
          else bit (s.reg a) i)
    ∧ (storesOnly a → ∃ t, exec (.registerWrite 0 off v) s = .next t ∧ BusSide s t ∧ t.out = s.out ∧ OtherRegs s t [a]
      ∧ ∀ i, i < 8 * r.width → bit (t.reg a) i = if bit r.rw i = true then bit v.toNat i else bit (s.reg a) i)
    ∧ (r.width = 8 →
      (NoRunAt s a → ∃ t, exec (.regHighHalfRead 0 off) s = .next t ∧ BusSide s t ∧ t.regs = s.regs ∧ t.heldLow = s.heldLow ∧ t.latched a = none
        ∧ ReadsAs s t (a + 4) ((s.latched a).getD (s.readable a / 2 ^ 32)) ∧ ∀ b, b ≠ a → t.latched b = s.latched b)
      ∧ (∃ t, exec (.regLowHalfWrite 0 off w) s = .next t ∧ t = { s with heldLow := t.heldLow } ∧ t.held a = some w.toNat
        ∧ ∀ b, b ≠ a → t.held b = s.held b)
      ∧ (storesOnly a → ∃ t, exec (.regHighHalfWrite 0 off w) s = .next t ∧ BusSide s t ∧ t.latchedHigh = s.latchedHigh ∧ t.out = s.out
        ∧ t.held a = none ∧ (∀ b, b ≠ a → t.held b = s.held b) ∧ OtherRegs s t [a]
        ∧ ∀ i, i < 64 → bit (t.reg a) i = if bit r.rw i = false then bit (s.reg a) i
            else if i < 32 then bit ((s.held a).getD (s.view a % 2 ^ 32)) i else bit w.toNat (i - 32)))
    ∧ ∀ (write : Bool) (n : BitVec 4) (o : W32), (n = 1 ∨ n = 2) → a ≤ o.toNat → o.toNat < a + r.width → NoRunAt s a →
      ∃ t, exec (.regAccess 0 write o n v) s = .next t ∧
        let s2 := State.raise (s.setFld Reg.HST_STATUS 31 16 0x0701) { src := 0x41, code := 0x0701 }
        (write = true → t = s2) ∧ (write = false → t = s2.emit (.readData 0 o.toNat 0)))
  ∧ (∀ (write : Bool) (off : W32) (n : BitVec 4) (v : W64), n = 1 ∨ n = 2 ∨ n = 4 ∨ n = 8 → off.toNat % n.toNat = 0 →
    msixPlace 0 off.toNat = none → NoRunAt s off.toNat → (∀ b r, regRow b = some r → off.toNat + n.toNat ≤ b ∨ b + r.width ≤ off.toNat) →
    exec (.regAccess 0 write off n v) s = .next (if write = true then s else s.emit (.readData 0 off.toNat 0)))
  ∧ ∀ (ix : W16) (ring : Nat), s.pageRing 0 ix.toNat = some ring →
    let m := s.mbox ring
    ∃ t, exec (.mailboxRead 0 ix) s = .next t ∧ ReadsAs s t (Reg.HST_MBOX ix.toNat) m.word ∧ t.regs = s.regs
      ∧ (t.mbox ring = if m.tag = 0 then m else { m with reads := min 63 (m.reads + 1) }) ∧ ∀ q, q ≠ ring → t.mbox q = s.mbox q

namespace Sys2Proof.Claims

/-- Every byte reads as before but `n` of them from key `k`, which are those of a list. -/
def BytesAre (s t : State) (k : Nat) (bs : List Byte) : Prop :=
  ∀ b, t.byte b = if k ≤ b ∧ b < k + bs.length then bs.getD (b - k) 0 else s.byte b

/-- An ownership entry lets the contexts of a list read or write its page (R316); no lookup of it hits a cache. -/
def PageOpen (s : State) (ctxs : List Nat) (a : Nat) (write : Bool) : Prop :=
  let e := s.potEntry (a / 65536)
  s.chState (channelOf a) = 2 ∧ s.chState (channelOf (entryAddr (a / 65536))) = 2 ∧ bits e 57 54 ≠ 15 ∧ bit e 63 = true
  ∧ bits e 51 40 ∈ ctxs ∧ bit e (if write = true then 61 else 60) = true

/-- A page of a region is owned (R328). -/
def RegionOwned (s : State) (r : Nat) : Prop :=
  ∃ x ∈ s.mem.pot, x.first / 2 ^ 20 ≤ r ∧ r ≤ (x.first + x.count - 1) / 2 ^ 20 ∧ x.entry.getLsbD 63 = true

/-- A region is online exactly where its 16 channels are in SERVICE; the other regions are as they were (R308). -/
def RegionFollows (s t : State) (r : Nat) : Prop :=
  (t.regionOnline r = true ↔ ∀ i, i < 16 → t.chState (16 * r + i) = 2)
  ∧ ∀ q, q ≠ r → q < 16 → t.regionOnline q = s.regionOnline q

/-- A burst that a generator reads differs from its pattern in some word. -/
def burstDiffers (s : State) (t : TgRun) (c i : Nat) : Bool :=
  (List.range 8).any fun w => s.natAt (addrOf c (t.addr i) + 8 * w) 8 != t.word (t.addr i) w

end Sys2Proof.Claims

open Sys2Proof.Claims in
/-- BAR4 reads and writes reach the bytes named or fail their check; scrubs, channel tests, generators and lookups do
what chapter 9 says. BAR4 accesses inside the window reach base + offset: the PF reads and writes every page that is
not reserved, a VF those its contexts own with the permission, and an address of 2^40 or more reads 0 and is not
written; an access that fails its check is not made and is reported. A scrub corrects and counts a single-bit error,
poisons and reports an uncorrectable one in HBM, and counts a pass. The end of training puts a channel into SERVICE
(TEST in phase HBM) or FAILED, and its region is online exactly with all channels in SERVICE. TEST takes a channel
from SERVICE to TEST if its region holds no owned page, else the write is refused, as it is without the feature; its
end takes it back. START in TEST with a range inside the data area starts a run with the settings and clears its
operations and results, else it is refused; STOP marks it; a run that ends, of which no read found a part before,
leaves MEM_TG_DONE at its operations and writes only its bursts, or counts the bursts that differ and reports them. A
lookup loads the entry of the page asked for. (R308, R316, R317, R324, R325, R326, R327, R328, R329, R331, R332,
R470). -/
def Obligations.HostWindowsAndMemoryUnit : Prop :=
  (∀ (s : State) (fn : Fn) (off : W64) (len : BitVec 13) (data : List Byte) (base size : Nat), NoErrors s →
    s.bar4 fn.toNat = some (base, size) →
    let o := off.toNat
    let a := base + o
    let n := len.toNat
    (o + n ≤ size →
      (2 ^ 40 < a + n → exec (.bar4Read fn off len) s = .next (s.emit (.bar4Data fn.toNat o (List.replicate n 0) false)))
      ∧ (fn = 0 → PfMayAccess s a n → exec (.bar4Read fn off len) s = .next (s.emit (.bar4Data 0 o (s.bytesAt a n) false)))
      ∧ (fn = 0 → 0 < n → a / 256 = (a + n - 1) / 256 → s.chState (channelOf a) = 2 → reservedPage (a / 65536) = true →
        a + n ≤ 2 ^ 40 → exec (.bar4Read fn off len) s
          = .next ((s.emit (.bar4Data 0 o (List.replicate n 0) false)).raise { src := 0x4B, code := Code.MEM_RESERVED }))
      ∧ (fn ≠ 0 → 0 < n → a / 256 = (a + n - 1) / 256 → a + n ≤ 2 ^ 40 → PageOpen s (s.ctxsOf fn.toNat) a false →
        exec (.bar4Read fn off len) s = .next (s.emit (.bar4Data fn.toNat o (s.bytesAt a n) false))))
    ∧ (o + data.length ≤ size →
      (2 ^ 40 < a + data.length → exec (.bar4Write fn off data) s = .next s)
      ∧ ((fn = 0 ∧ PfMayAccess s a data.length)
          ∨ (fn ≠ 0 ∧ 0 < data.length ∧ a / 256 = (a + data.length - 1) / 256 ∧ a + data.length ≤ 2 ^ 40
            ∧ PageOpen s (s.ctxsOf fn.toNat) a true) →
        ∃ t, exec (.bar4Write fn off data) s = .next t ∧ OnlyMem s t ∧ BytesAre s t a data ∧ t.mem.pot = s.mem.pot)
      ∧ (fn = 0 → 0 < data.length → a / 256 = (a + data.length - 1) / 256 → s.chState (channelOf a) = 2 →
        reservedPage (a / 65536) = true → a + data.length ≤ 2 ^ 40 →
        exec (.bar4Write fn off data) s = .next (s.raise { src := 0x4B, code := Code.MEM_RESERVED }))))
  ∧ (∀ (s : State) (key : W64) (bytes : W32) (k : W64), NoErrors s →
    let e := k.toNat / eccUnit k.toNat * eccUnit k.toNat
    let ch := channelOf e
    let h := hallOfKey e
    (exec (.patrolScrub key bytes [] true) s = .next (if bit (s.reg Reg.MEM_SCRUB_CTRL) 8 = true then
        s.setReg Reg.MEM_SCRUB_PASS ((s.reg Reg.MEM_SCRUB_PASS + 1) % 2 ^ 32) else s))
    ∧ (key.toNat ≤ e → e < key.toNat + bytes.toNat → s.scrubs e = true → spaceOf e = 2 →
      (∃ s2, exec (.patrolScrub key bytes [(k, false)] false) s
          = .next (State.raise s2 { src := 0x13, hall := h, code := Code.MEM_CE, inst := ch })
        ∧ s2.mem = s.mem ∧ OnlyRegs s s2 [Reg.MEM_CH_ERR_ADDR ch, Reg.MEM_CH_CE ch, Reg.MEM_CE_TOTAL]
        ∧ s2.reg (Reg.MEM_CH_CE ch) = plus1 (s.reg (Reg.MEM_CH_CE ch)) ∧ s2.reg (Reg.MEM_CH_ERR_ADDR ch) = localOf e)
      ∧ ∃ s2, exec (.patrolScrub key bytes [(k, true)] false) s
          = .next (State.raise s2 { src := 0x10, hall := h, ctx := s.pageOwner (e / 65536), code := Code.MEM_UE })
        ∧ s2.mem = { s.mem with ecc := [⟨e, true, true, [k.toNat / 8 * 8]⟩] } ∧ s2.reg Reg.MEM_LAST_UE = e
        ∧ s2.reg Reg.MEM_UE_TOTAL = plus1 (s.reg Reg.MEM_UE_TOTAL) ∧ s2.reg (Reg.HAL_MEM_FAULT_ADDR h) = e))
  ∧ (∀ (s : State) (ch : BitVec 8),
    let c := ch.toNat
    (s.chState c = 1 →
      (∃ t, exec (.channelTrainingEnd ch true) s = .next t ∧ OnlyRegs s t [Reg.MEM_CH_STATUS c, Reg.MEM_REGION_ONLINE]
        ∧ t.chState c = (if s.fld Reg.DEV_BRINGUP 31 28 = 2 then 3 else 2) ∧ RegionFollows s t (c / 16))
      ∧ ∃ s2, exec (.channelTrainingEnd ch false) s
          = .next (State.raise s2 { src := 0x14, hall := c / 16, code := Code.MEM_CHANNEL_DOWN, inst := c })
        ∧ OnlyRegs s s2 [Reg.MEM_CH_STATUS c, Reg.MEM_REGION_ONLINE] ∧ s2.chState c = 4 ∧ s2.regionOnline (c / 16) = false)
    ∧ (s.ready = true → s.feature 12 = false → ∃ t, exec (.channelTestEnter ch) s = .next t
      ∧ OnlyRegs s t [Reg.DEV_FEATURE_CTRL] ∧ t.fld Reg.DEV_FEATURE_CTRL 31 16 = Code.FEATURE_NOT_ACCEPTED)
    ∧ (s.ready = true → s.feature 12 = true → s.chState c = 2 → ¬ RegionOwned s (c / 16) → ∃ t, exec (.channelTestEnter ch) s = .next t ∧ t.chState c = 3
      ∧ OnlyRegs s t [Reg.MEM_CH_CTRL c, Reg.MEM_CH_STATUS c, Reg.MEM_REGION_ONLINE] ∧ t.regionOnline (c / 16) = false
      ∧ bit (t.reg (Reg.MEM_CH_CTRL c)) 0 = true)
    ∧ (s.ready = true → s.feature 12 = true → s.chState c ≠ 2 ∨ RegionOwned s (c / 16) → ∃ t, exec (.channelTestEnter ch) s = .next t ∧ t.chState c = s.chState c
      ∧ OnlyRegs s t [Reg.MEM_CH_CTRL c, Reg.MEM_TG_STATUS c] ∧ t.fld (Reg.MEM_TG_STATUS c) 31 16 = Code.MEM_TG_REFUSED
      ∧ bit (t.reg (Reg.MEM_CH_CTRL c)) 0 = false)
    ∧ (s.ready = true → s.chState c = 3 → ∃ t, exec (.channelTestExit ch) s = .next t ∧ t.chState c = 2 ∧ mapGet none t.mem.tg c = none
      ∧ RegionFollows s t (c / 16) ∧ ∀ b, b < 2 ^ 36 * (c / 16) ∨ 2 ^ 36 * (c / 16) + 0xFFE000000 ≤ b → t.byte b = s.byte b))
  ∧ (∀ (s : State) (ch : BitVec 8) (v : W32), s.ready = true →
    let c := ch.toNat
    let first := s.reg (Reg.MEM_TG_START c)
    let last := s.reg (Reg.MEM_TG_END c)
    let sound := s.chState c = 3 ∧ mapGet none s.mem.tg c = none ∧ first % 64 = 0 ∧ last % 64 = 0 ∧ first ≤ last
      ∧ last ≤ 0xFFDFFFFF ∧ bits v.toNat 3 0 ≤ 8
    (bit v.toNat 31 = true → sound → ∃ t, exec (.tgStart ch v) s = .next t ∧ t = { s with regs := t.regs, mem := t.mem }
      ∧ t.mem = { s.mem with tg := t.mem.tg } ∧ t.fld (Reg.MEM_TG_STATUS c) 2 0 = 1 ∧ t.reg (Reg.MEM_TG_CTRL c) = bits v.toNat 13 0
      ∧ t.reg (Reg.MEM_TG_OPS c) = 0 ∧ t.reg (Reg.MEM_TG_DONE c) = 0 ∧ t.reg (Reg.MEM_TG_CYCLES c) = 0 ∧ t.reg (Reg.MEM_TG_ERRS c) = 0
      ∧ (∀ x, x ≠ c → mapGet none t.mem.tg x = mapGet none s.mem.tg x)
      ∧ mapGet none t.mem.tg c = some { ctrl := bits v.toNat 13 0, seed := s.reg (Reg.MEM_TG_SEED c), user := s.reg (Reg.MEM_TG_USER c), first := first, last := last, stride := s.reg (Reg.MEM_TG_STRIDE c), ops := s.reg (Reg.MEM_TG_OPS c), began := s.cycles })
    ∧ (bit v.toNat 31 = true → ¬ sound → ∃ t, exec (.tgStart ch v) s = .next t ∧ t.mem = s.mem
      ∧ OnlyRegs s t [Reg.MEM_TG_CTRL c, Reg.MEM_TG_STATUS c] ∧ t.fld (Reg.MEM_TG_STATUS c) 31 16 = Code.MEM_TG_REFUSED)
    ∧ ∀ r, mapGet none s.mem.tg c = some r →
      (∃ t, exec (.tgStop ch) s = .next t ∧ t = { s with mem := { s.mem with tg := t.mem.tg } }
        ∧ mapGet none t.mem.tg c = some { r with stopping := true })
      ∧ ∀ n : W64, 0 < n.toNat → n.toNat = r.ops → NoErrors s → r.done = 0 → r.next = 0 → r.errs = 0 →
        r.mism = none →
        (bits r.ctrl 5 4 = 0 → ∃ t, exec (.tgRunEnd ch n) s = .next t ∧ t = { s with regs := t.regs, mem := t.mem }
          ∧ mapGet none t.mem.tg c = none ∧ t.reg (Reg.MEM_TG_DONE c) = r.ops ∧ t.fld (Reg.MEM_TG_STATUS c) 1 0 = 2
          ∧ (∀ b, (∀ i, i < r.ops → b < addrOf c (r.addr i) ∨ addrOf c (r.addr i) + 64 ≤ b) → t.byte b = s.byte b)
          ∧ ∀ j, j < 64 → t.byte (addrOf c (r.addr (r.ops - 1)) + j) = (r.burst (r.addr (r.ops - 1))).getD j 0)
        ∧ (bits r.ctrl 5 4 = 1 →
          let wrong := ((List.range r.ops).filter (burstDiffers s r c)).length
          (wrong = 0 → ∃ t, exec (.tgRunEnd ch n) s = .next t ∧ t = { s with regs := t.regs, mem := t.mem } ∧ SameBytes s t
            ∧ mapGet none t.mem.tg c = none ∧ t.reg (Reg.MEM_TG_ERRS c) = 0 ∧ t.fld (Reg.MEM_TG_STATUS c) 1 0 = 2)
          ∧ (wrong ≠ 0 → ∃ s2 t, exec (.tgRunEnd ch n) s = .next t
            ∧ t = { State.raise s2 { src := 0x4A, code := Code.MEM_TG_MISMATCH, inst := c } with regs := t.regs, mem := t.mem }
            ∧ SameBytes s t ∧ mapGet none t.mem.tg c = none ∧ t.reg (Reg.MEM_TG_ERRS c) = min wrong 0xFFFFFFFF
            ∧ t.fld (Reg.MEM_TG_STATUS c) 2 0 = 6)))
  ∧ ∀ (s : State) (page : BitVec 24),
    (s.ready = true → exec (.potQuery page) s
      = .next { s.dropHalves Reg.MEM_POT_QUERY with mem := { s.mem with potQuery := some page.toNat } })
    ∧ (s.mem.potQuery = none → exec .potLookupDone s = .next s)
    ∧ ∀ p, s.mem.potQuery = some p → ∃ t, exec .potLookupDone s = .next t
      ∧ t = { s with regs := t.regs, mem := { s.mem with potQuery := none } } ∧ OtherRegs s t [Reg.MEM_POT_ENTRY]
      ∧ t.reg Reg.MEM_POT_ENTRY = s.potEntry p

namespace Sys2Proof.Claims

/-- A load begins: its staging range is placed in a region of the context's halls and given to it, the load is listed, and its
package is asked for. -/
def Fetches (i : Instr) (s : State) (ring : RingId) (k : Cmd) (l : Load) (n : Nat) (t : State) : Prop :=
  let own := ring.toNat
  let x := s.ctx k.ctx
  exec i s = .next t ∧ (t.ring own).posted = (s.ring own).posted ∧ t.out = s.out ++ [.hostRead l.src l.bytes]
  ∧ (t.ring own).cmds = (s.ring own).cmds.map (fun y => if y.id = k.id then { y with started := true } else y)
  ∧ ∃ p, (t.ctx k.ctx).ranges = x.ranges ++ [⟨p, n, 6, true, true⟩]
    ∧ (t.ctx k.ctx).loads = x.loads ++ [{ l with staging := p }]
    ∧ ∀ q, p ≤ q → q < p + n → bits (t.potEntry q) 51 40 = k.ctx ∧ bits (t.potEntry q) 57 54 = 6

/-- The halls of a context have a region whose pages are all free. -/
def HasRoom (s : State) (x : Ctx) : Prop := ∃ h, h < 16 ∧ bit x.named h = true ∧ EmptyRegion s h

/-- A command of a ring waits for the package of a load over PCIe. -/
def Loading (s : State) (ring : RingId) (seq : W32) (k : Cmd) (c : Nat) (l : Load) : Prop :=
  let r := s.ring ring.toNat
  r.cmds.find? (fun x => x.seq == seq.toNat) = some k ∧ (r.cmds.map (·.id)).Nodup ∧ l.cmd = ⟨ring.toNat, k.id⟩
  ∧ s.loadOf ring.toNat seq.toNat = some (c, l) ∧ l ∈ (s.ctx c).loads ∧ l.garrid = false

/-- The descriptor of a BATCH command: the one read from the host, or the bytes of device memory that it names (R409). -/
def DescIs (s : State) (ring : RingId) (k : Cmd) (desc : HostRead) (bs : List Byte) : Prop :=
  let a := k.at_ 16 8
  let n := (batchOffsets (s.bytesAt a 32)).2.2.2.2
  (bit (k.at_ 24 1) 0 = false ∧ desc = .data bs)
  ∨ (bit (k.at_ 24 1) 0 = true ∧ s.ringFn ring.toNat = 0 ∧ NoErrors s ∧ PfMayAccess s a 32 ∧ PfMayAccess s a n ∧ bs = s.bytesAt a n)

end Sys2Proof.Claims

open Sys2Proof.Claims in
/-- Shards are fetched, checked, verified or quarantined; versions are switched, discarded, restored and re-checked; a
batch waits for its landing. For commands that a ring lists as accepted, of contexts in a state that takes work:
LOAD_SHARD into a RETIRED or STAGING slot and LOAD_DATA into a DATA range place a staging range, list the load and ask
for the package, or are refused with VERSION_SLOT_BUSY, CACHE_FULL or CMD_ENCODING. A package that arrives with a
wrong digest is fetched again up to 3 times, then its shard is QUARANTINED with DIGEST_FAIL; one with a bad header
completes with BRIXAH_FORMAT, one of another model with SHARD_MISMATCH; a good one has its sections laid out and its
shard verified, and with the last one the version is VERIFIED with the digest of its image. A fetch that fails
completes with HOST_DMA, a late one with SHARD_TIMEOUT and its event. SWITCH_VERSION waits for a landing;
DISCARD_VERSION empties its slot; RESTORE_IMAGE brings an evicted image back or quarantines it; a re-check marks an
image whose digest differs and counts a pass; BATCH waits with its checked descriptor or is refused. A context that
takes no work refuses each with CTX_STATE_INVALID. (R409, R410, R442, R448, R450, R451, R452, R453, R454, R456, R458,
13 Table 13.6). -/
def Obligations.ModelShardsVersionsAndBatches : Prop :=
  (∀ (s : State) (ring : RingId) (seq : W32) (k : Cmd) (host : HostRead), Room (s.ring ring.toNat) →
    let own := ring.toNat
    let me : CmdRef := ⟨own, k.id⟩
    let x := s.ctx k.ctx
    let m := k.at_ 16 1
    let slot := k.at_ 17 1
    let v := x.ver m slot
    let n := max 1 (ceilDiv (k.at_ 32 8) 65536)
    let plain := bit (k.at_ 18 1) 1 = false ∧ bit (k.at_ 18 1) 2 = false
    let roomy := x.ranges.length < 64 ∧ HasRoom s x ∧ x.epoch < 65536
    (x.state.takesWork = false →
      (Performs s ring seq 0x30 k → Answered (.loadShard ring seq) s ring k Code.CTX_STATE_INVALID 0 0)
      ∧ (Performs s ring seq 0x31 k → Answered (.loadData ring seq) s ring k Code.CTX_STATE_INVALID 0 0)
      ∧ (Performs s ring seq 0x32 k → Answered (.switchVersion ring seq) s ring k Code.CTX_STATE_INVALID 0 0)
      ∧ (Performs s ring seq 0x33 k → Answered (.discardVersion ring seq) s ring k Code.CTX_STATE_INVALID 0 0)
      ∧ (Performs s ring seq 0x34 k → Answered (.restoreImage ring seq host) s ring k Code.CTX_STATE_INVALID 0 0)
      ∧ (Performs s ring seq 0x21 k → Answered (.batch ring seq host) s ring k Code.CTX_STATE_INVALID 0 0))
    ∧ (x.state.takesWork = true →
      (Performs s ring seq 0x30 k → plain →
        (v.state ≠ .retired → v.state ≠ .staging → Answered (.loadShard ring seq) s ring k Code.VERSION_SLOT_BUSY 0 0)
        ∧ (v.state = .retired → 256 ≤ s.images → s.feature featEvict = false →
          Answered (.loadShard ring seq) s ring k Code.CACHE_FULL 0 0)
        ∧ (v.state = .staging ∨ (v.state = .retired ∧ s.images < 256) → roomy → n ≤ 0xFFE00 →
          ∃ t, Fetches (.loadShard ring seq) s ring k { cmd := me, model := m, slot := slot, toData := none, pin := bit (k.at_ 18 1) 0, mez := none, garrid := false, peer := k.at_ 20 2, src := k.at_ 24 8, bytes := k.at_ 32 8, staging := 0, began := s.monoNs } n t
            ∧ ((t.ctx k.ctx).ver m slot).state = .staging))
      ∧ (Performs s ring seq 0x31 k →
        ((∀ r, x.rangeAt (k.at_ 40 8) 1 = some r → r.kind ≠ 1) → Answered (.loadData ring seq) s ring k Code.CMD_ENCODING 0 0)
        ∧ ((∃ r, x.rangeAt (k.at_ 40 8) 1 = some r ∧ r.kind = 1) → bit (k.at_ 18 1) 2 = false → roomy → n ≤ 0xFFE00 →
          ∃ t, Fetches (.loadData ring seq) s ring k { cmd := me, model := 0, slot := 0, toData := some (k.at_ 40 8), pin := false, mez := none, garrid := false, peer := k.at_ 20 2, src := k.at_ 24 8, bytes := k.at_ 32 8, staging := 0, began := s.monoNs } n t
            ∧ (t.ctx k.ctx).models = x.models))
      ∧ (Performs s ring seq 0x32 k →
        Requested (.switchVersion ring seq) s ring k { cmd := some me, serial := k.serial, target := k.at_ 24 8, kind := .switch m })
      ∧ (Performs s ring seq 0x33 k →
        (v.state ∉ [VerState.staging, .verified, .quarantined] → Answered (.discardVersion ring seq) s ring k Code.CTX_STATE_INVALID 0 0)
        ∧ (v.state ∈ [VerState.staging, .verified, .quarantined] →
          (∀ l ∈ x.loads, l.model = m → l.slot = slot → l.toData ≠ none) →
          ∃ t, exec (.discardVersion ring seq) s = .next t ∧ Posted s t own k 0 0 0 ∧ (t.ctx k.ctx).ver m slot = {}))
      ∧ (Performs s ring seq 0x34 k →
        (v.evicted = none → Answered (.restoreImage ring seq host) s ring k Code.CTX_STATE_INVALID 0 0)
        ∧ ∀ bs, host = .data bs → v.evicted ≠ none → s.images < 256 → roomy → 0 < v.pages → v.pages ≤ 0xFFE00 →
          bs.length = 65536 * v.pages → ∃ t p, exec (.restoreImage ring seq host) s = .next t ∧ BytesAre s t (65536 * p) bs
            ∧ (sha256 bs = v.digest → Posted s t own k 0 (65536 * p) 0
              ∧ (t.ctx k.ctx).ver m slot = { v with base := p, evicted := none })
            ∧ (sha256 bs ≠ v.digest → Posted s t own k Code.DIGEST_FAIL 0 0
              ∧ (t.ctx k.ctx).ver m slot = { v with base := p, evicted := none, state := .quarantined }))
      ∧ (Performs s ring seq 0x21 k → ∀ bs, DescIs s ring k host bs →
        (∀ p, x.pool = some p → bits (leField bs 8 2) 11 0 = k.ctx →
          (batchOk p bs = false → ∃ t, exec (.batch ring seq host) s = .next t ∧ Posted s t own k Code.BATCH_INVALID 0 0
            ∧ t.ctx k.ctx = { x with pool := some { p with lastCode := Code.BATCH_INVALID }, lastCode := Code.BATCH_INVALID })
          ∧ (batchOk p bs = true → p.batch ≠ none → ∃ t, exec (.batch ring seq host) s = .next t
            ∧ Posted s t own k Code.BATCH_PENDING 0 0
            ∧ t.ctx k.ctx = { x with pool := some { p with lastCode := Code.BATCH_PENDING }, lastCode := Code.BATCH_PENDING })
          ∧ (batchOk p bs = true → p.batch = none → ∃ t, exec (.batch ring seq host) s = .next t ∧ Waits s t own k
            ∧ t.ctx k.ctx = { x with pool := some { p with batch := some (batchOf me k.serial bs) } }))
        ∧ (x.pool = none → Answered (.batch ring seq host) s ring k Code.BATCH_INVALID 0 0))))
  ∧ (∀ (s : State) (ring : RingId) (seq : W32) (k : Cmd) (c : Nat) (l : Load) (bs : List Byte), Room (s.ring ring.toNat) →
    Loading s ring seq k c l → bs.length = l.bytes →
    let own := ring.toNat
    let x := s.ctx c
    let v := x.ver l.model l.slot
    let shard := leField bs 20 2
    let off := leField bs 32 8
    let top := ((v.parts.filter fun p => decide (off < p.2)).map (·.2)).foldl min v.imageBytes
    let known := brixahDigestOk bs = true ∧ brixahHeaderOk bs = true ∧ (brixahUsesZstd bs = true → s.feature featZstd = true)
    (∃ s2, exec (.shardTimeout ring seq) s = .next (State.raise s2 { src := 0x47, ctx := some c, code := Code.SHARD_TIMEOUT })
      ∧ Posted s s2 own k Code.SHARD_TIMEOUT 0 0 ∧ l ∉ (s2.ctx c).loads)
    ∧ (∃ t, exec (.shardFetchDone ring seq .failed) s = .next t ∧ Posted s t own k Code.HOST_DMA 0 0 ∧ l ∉ (t.ctx c).loads)
    ∧ (brixahDigestOk bs = false → l.retries < 3 → ∃ t, exec (.shardFetchDone ring seq (.data bs)) s = .next t ∧ t.rings = s.rings
      ∧ t.out = s.out ++ [.hostRead l.src l.bytes] ∧ BytesAre s t (65536 * l.staging) bs
      ∧ (t.ctx c).loads = x.loads.map fun y => if y = l then { l with retries := l.retries + 1, got := 0 } else y)
    ∧ (brixahDigestOk bs = false → 3 ≤ l.retries → ∃ t, exec (.shardFetchDone ring seq (.data bs)) s = .next t
      ∧ Posted s t own k Code.DIGEST_FAIL 0 0 ∧ t.reg Reg.CTX_DIGEST_FAILS = plus1 (s.reg Reg.CTX_DIGEST_FAILS)
      ∧ (l.toData = none → shard ∈ ((t.ctx c).ver l.model l.slot).quarantined
        ∧ ((t.ctx c).ver l.model l.slot).state = if v.state = .staging then .quarantined else v.state))
    ∧ (brixahDigestOk bs = true → brixahHeaderOk bs = false → ∃ t, exec (.shardFetchDone ring seq (.data bs)) s = .next t
      ∧ Posted s t own k Code.BRIXAH_FORMAT 0 0 ∧ l ∉ (t.ctx c).loads)
    ∧ (known → (∀ dest r w, l.toData = some dest → x.rangeAt dest 1 = some r →
      brixahWrites bs off (min (leField bs 40 8) (65536 * (r.base + r.pages) - dest)) s.free = some w →
      NoErrors s → s.ringFn own = 0 → (∀ e ∈ w, PfMayAccess s (dest + e.1) (outLen e.2)) →
      ∃ t, exec (.shardFetchDone ring seq (.data bs)) s = .next t ∧ Posted s t own k 0 0 0
        ∧ (t.ctx c).shardsVerified = x.shardsVerified + 1
        ∧ ∀ e ∈ w, ∀ b, e.2 = .inl b → ∀ j, j < b.length → t.byte (dest + e.1 + j) = b.getD j 0))
    ∧ (known → l.toData = none → v.pages ≠ 0 →
      (v.modelId ≠ leField bs 8 8 → ∃ t, exec (.shardFetchDone ring seq (.data bs)) s = .next t
        ∧ Posted s t own k Code.SHARD_MISMATCH 0 0)
      ∧ ∀ w, v.modelId = leField bs 8 8 → v.version = leField bs 16 4 → v.shards = leField bs 22 2 → v.imageBytes = leField bs 40 8 →
        shard ∉ v.verified → brixahWrites bs off top s.free = some w → NoErrors s →
        ∃ t, exec (.shardFetchDone ring seq (.data bs)) s = .next t ∧ Posted s t own k 0 shard 0
          ∧ (∀ e ∈ w, ∀ b, e.2 = .inl b → ∀ j, j < b.length → t.byte (65536 * v.base + e.1 + j) = b.getD j 0)
          ∧ ((t.ctx c).ver l.model l.slot).verified = v.verified ++ [shard]
          ∧ (x.state ≠ .loading → v.state = .staging → v.verified.length + 1 = v.shards →
            ((t.ctx c).ver l.model l.slot).state = .verified
            ∧ ((t.ctx c).ver l.model l.slot).digest = sha256 (t.bytesAt (65536 * v.base) (65536 * v.pages)))))
  ∧ ∀ (s : State) (ctx : CtxId) (model : BitVec 4) (slot : BitVec 1) (passEnd : Bool),
    let c := ctx.toNat
    let v := (s.ctx c).ver model.toNat slot.toNat
    let differs := v.evicted = none ∧ v.state ∈ [VerState.verified, .active, .draining]
      ∧ sha256 (s.bytesAt (65536 * v.base) (65536 * v.pages)) ≠ v.digest
    (bit (s.reg Reg.CTX_RECHECK) 8 = false → exec (.digestRecheck ctx model slot passEnd) s = .next s)
    ∧ (bit (s.reg Reg.CTX_RECHECK) 8 = true → NoErrors s → ∃ t, exec (.digestRecheck ctx model slot passEnd) s = .next t
      ∧ t = { s with ctxs := t.ctxs, regs := t.regs } ∧ (passEnd = false → t.regs = s.regs)
      ∧ (passEnd = true → t.reg Reg.CTX_RECHECK_PASS = (s.reg Reg.CTX_RECHECK_PASS + 1) % 2 ^ 32)
      ∧ (¬ differs → t.ctxs = s.ctxs)
      ∧ (differs → v.recheckFailed = none → (t.ctx c).ver model.toNat slot.toNat = { v with recheckFailed := some s.serial }))

namespace Sys2Proof.Claims

/-- What the report of an event of class `cls` below FATAL leaves (R549 to R562): it is counted; unless its source is masked, it is
pending and latched as FLT_CTRL says. -/
def Noted (s : State) (e : Event) (cls : Nat) (esc : Bool) : Prop :=
  let t := s.raise e
  let inst := if srcHall e.src then e.hall else 0
  let latch := latchReg e
  let least := bits (s.reg Reg.FLT_CTRL) 2 0
  let unset := s.clk.disc = .unset
  t = { s with regs := t.regs, srcWin := t.srcWin, out := t.out, pcie := t.pcie, ctxs := t.ctxs, halls := t.halls, sec := t.sec }
  ∧ t.reg (Reg.FLT_SRC_COUNT e.src inst) = plus1 (s.reg (Reg.FLT_SRC_COUNT e.src inst))
  ∧ (bit (s.reg (Reg.FLT_SRC_CFG e.src)) 30 = true → t.reg latch = s.reg latch ∧ t.reg (pendReg e) = s.reg (pendReg e))
  ∧ (bit (s.reg (Reg.FLT_SRC_CFG e.src)) 30 = false →
    (∀ i, i < 32 → bit (t.reg (pendReg e)) i = (decide (i = cls) || bit (s.reg (pendReg e)) i))
    ∧ (cls < least → t.reg latch = s.reg latch)
    ∧ (least ≤ cls → bit (s.reg latch) 63 = true → t.reg latch = setBits (s.reg latch) 62 62 1)
    ∧ (least ≤ cls → bit (s.reg latch) 63 = false → bit (t.reg latch) 63 = true ∧ bit (t.reg latch) 62 = false
      ∧ (bit (t.reg latch) 60 = true ↔ ¬ unset) ∧ bits (t.reg latch) 59 57 = cls ∧ bit (t.reg latch) 56 = esc
      ∧ bits (t.reg latch) 55 49 = e.src ∧ bits (t.reg latch) 36 29 = e.inst % 256 ∧ bits (t.reg latch) 28 22 = e.x % 128
      ∧ bits (t.reg latch) 21 16 = e.y % 64 ∧ bits (t.reg latch) 15 0 = e.code % 65536
      ∧ t.reg (latch + 24) = (if unset then 0 else s.frame) % 2 ^ 64))

/-- No hall replays the work of a context. -/
def NoReplay (s : State) (c : Nat) : Prop := ∀ h, h < 16 → ∀ r, (s.hall h).replay = some r → r.ctx ≠ c

end Sys2Proof.Claims

open Sys2Proof.Claims in
/-- Events are counted, classed, latched and acted on as chapter 16 says, and each SMBus read answers with what Table
20.7 gives. FAULT_EVENT and MESH_DEADLOCK report an event of their source with the CODE, INST and place that Tables
16.1 and 16.2 give it, and a QUARANTINE_DROP counts, records its slot and reports once a second. The report of an
event outside a reset step counts it in its instance; unless the source is masked, its class is pending, and from the
least latched class on it fills an empty latch or sets the OVERFLOW of a full one; the class is the base class of the
source, or SEVERE when the counts of its window pass the threshold that escalates it. A SEVERE event faults the
context that a tagged source names, or makes the recovery of the hall of an untagged one due; a FATAL one begins a
device reset. LATCH_CLEAR empties its latch and leaves every other register. While the SMBus target answers, each read
sends the bytes of Table 20.7 and changes nothing else, but that INPUT_PEAK starts its peak again and the alert
response releases SMB_ALERT_N; otherwise nothing is sent. (R549, R551, R552, R555, R556, R557, R563, R590, R659, R660,
20 Table 20.7). -/
def Obligations.FaultEventsAndSmbusReads : Prop :=
  (∀ (s : State) (src : BitVec 7) (hall : HallId) (ctx : Option CtxId) (code : W16) (inst : Byte) (x : BitVec 7) (y : BitVec 6),
    s.power.good = true → src.toNat < 0x60 →
    (0x29 ≤ src.toNat → src.toNat ≤ 0x2F → x.toNat < 80 ∧ y.toNat < 50 ∧ hallOf x.toNat y.toNat = hall.toNat) →
    let e : Event := { src := src.toNat, hall := if srcHall src.toNat then hall.toNat else 0, ctx := if srcTagged src.toNat then ctx.map (·.toNat) else none, code := code.toNat, inst := inst.toNat, x := x.toNat, y := y.toNat }
    exec (.faultEvent src hall ctx code inst x y) s = .next (s.raise e.shown))
  ∧ (∀ (s : State) (hall : HallId),
    exec (.meshDeadlock hall) s = .next (s.raise { src := 0x1F, hall := hall.toNat, code := Code.MESH_DEADLOCK }))
  ∧ (∀ (s : State) (e : Event), e.src < 0x60 → e.hall < 16 → (srcHall e.src = true → s.inStep e.hall = false) →
    let cfg := s.reg (Reg.FLT_SRC_CFG e.src)
    let base := srcBase e.src
    let w := mapGet (0, 0) s.srcWin (16 * e.src + if srcHall e.src then e.hall else 0)
    let t := s.raise e
    (base < 4 → bit cfg 31 = false → Noted s e base false)
    ∧ (base < 3 → bit cfg 31 = true → w.1 ≠ 0 → s.monoNs - w.2 < 1000000 * bits cfg 21 0 → bits cfg 29 22 ≤ w.1 → Noted s e 3 true)
    ∧ (base = 3 → ∀ c, e.ctx = some c → srcTagged e.src = true → (s.ctx c).state ∉ [CtxState.free, .faulted, .detached] →
      NoReplay s c → (t.ctx c).fault = (s.ctx c).fault.or (some (s.serial, e.src, e.code)))
    ∧ (base = 3 → srcTagged e.src = false → srcHall e.src = true → (s.hall e.hall).replay = none →
      (t.hall e.hall).due = (s.hall e.hall).due.or
        (some ({ src := e.src, code := e.code, hall := e.hall, inst := e.inst, x := e.x, y := e.y, frame := s.frame, first := s.frame }, s.serial)))
    ∧ (base = 4 → e.src ≠ 0x54 → e.src ≠ 0x55 → ∃ st, t.devStep = some st ∧ st.kind = .device ∧ st.cause.src = e.src
      ∧ t.fld Reg.DEV_BRINGUP 31 28 = 0))
  ∧ (∀ (s : State) (g : BitVec 8) (slot : BitVec 5),
    let h := g.toNat / 10
    let j := g.toNat % 10
    let k := 27 * j + slot.toNat
    g.toNat < 160 → slot.toNat < 27 →
    ((s.hall h).slotState j slot.toNat = 0 → exec (.quarantineDrop g slot) s = .next s)
    ∧ ((s.hall h).slotState j slot.toNat ≠ 0 → ∃ s2, s2.reg (Reg.HAL_QUARANTINE_DROPS h) = plus1 (s.reg (Reg.HAL_QUARANTINE_DROPS h))
      ∧ s2.reg (Reg.HAL_QDROP_LAST h) = 2 ^ 31 + j * 32 + slot.toNat ∧ s2 = { s with regs := s2.regs, halls := s2.halls }
      ∧ OtherRegs s s2 [Reg.HAL_QUARANTINE_DROPS h, Reg.HAL_QDROP_LAST h]
      ∧ ((∃ e ∈ (s.hall h).dropTimes, e.1 = k ∧ s.monoNs < e.2 + 1000000000) → exec (.quarantineDrop g slot) s = .next s2)
      ∧ ((∀ e ∈ (s.hall h).dropTimes, e.1 = k → e.2 + 1000000000 ≤ s.monoNs) → exec (.quarantineDrop g slot) s
          = .next (State.raise s2 { src := 0x1B, hall := h, code := Code.QUARANTINE_DROP }))))
  ∧ (∀ (s : State) (scope : Option HallId), s.ready = true →
    ∃ t, exec (.latchClear scope) s = .next t ∧ OnlyRegs s t [latchOf scope] ∧ bits (t.reg (latchOf scope)) 63 62 = 0
      ∧ bits (t.reg (latchOf scope)) 61 0 = bits (s.reg (latchOf scope)) 61 0)
  ∧ ∀ (s : State) (n : BitVec 5) (r : BitVec 6),
    let boot := s.fld Reg.SEC_STATUS 2 0
    let on := s.power.good = true ∧ 1 ≤ boot ∧ boot ≤ 3
    (on →
      exec .status s = .next (s.emit (.smbus (leBytes 2
        (boot + 8 * b2n (bit (s.view Reg.FLT_STATUS) 30) + 16 * s.fld Reg.PWR_STATUS 16 16 + 32 * s.fld Reg.PWR_STATUS 2 0))))
      ∧ exec .input s = .next (s.emit (.smbus (leBytes 4 (s.reg Reg.PWR_INPUT))))
      ∧ exec .inputPeak s
          = .next { s.emit (.smbus (leBytes 2 s.power.smbPeak)) with power := { s.power with smbPeak := 0 } }
      ∧ exec .energy s = .next (s.emit (.smbus (leBytes 8 (s.reg Reg.PWR_ENERGY))))
      ∧ exec .faults s = .next (s.emit (.smbus (leBytes 4 (s.view Reg.FLT_STATUS))))
      ∧ (n.toNat ≤ 29 → exec (.tempN n) s = .next (s.emit (.smbus (leBytes 2
          (if bit (s.reg (Reg.PWR_TEMP n.toNat)) 31 = true then s.reg (Reg.PWR_TEMP n.toNat) else 0x8000)))))
      ∧ (r.toNat ≤ 33 → exec (.railN r) s = .next (s.emit (.smbus (leBytes 8 (s.reg (Reg.PWR_RAIL r.toNat))))))
      ∧ exec .serial s = .next (s.emit (.smbus (leBytes 8 (s.reg Reg.SEC_SERIAL))))
      ∧ exec .part s = .next (s.emit (.smbus ("IET-4000-1T".toList.map fun c => BitVec.ofNat 8 c.toNat)))
      ∧ exec .versions s = .next (s.emit (.smbus ((List.range 4).flatMap fun k => leBytes 4 (s.imageVersion s.bank k))))
      ∧ (s.power.alert = true → exec .alertResponse s = .next { s.emit (.smbus [BitVec.ofNat 8 (2 * (0x58 + Config.smbAddr.toNat))]) with power := { s.power with alert := false } })
      ∧ (s.power.alert = false → exec .alertResponse s = .next s))
    ∧ (29 < n.toNat → exec (.tempN n) s = .next s) ∧ (33 < r.toNat → exec (.railN r) s = .next s)
    ∧ (¬ on → ∀ i ∈ [Instr.status, .input, .inputPeak, .energy, .faults, .tempN n, .railN r, .serial, .part, .versions, .alertResponse],
      exec i s = .next s)

namespace Sys2Proof.Claims

/-- What keeps a port from training, but for EN (R524, R661, R662). -/
def LinkSet (s : State) (g : Nat) : Prop :=
  let c : Cable := mapGet {} s.cables (g / 4)
  bit (s.reg Reg.DEV_FEATURE_CTRL) 0 = true ∧ s.deviceId ≠ 0xFFFF ∧ c.present = true ∧ c.vcbl = true

/-- A port leaves service (R527, R531): it enters DOWN or DISABLED with no lanes, its replay buffer and its queue are discarded,
and LINK_DOWN is recorded and reported. No core changes. -/
def LeavesService (i : Instr) (s : State) (g st : Nat) : Prop :=
  ∃ s2, exec i s = .next (State.raise s2 { src := 0x36, code := Code.LINK_DOWN, inst := g }) ∧ s2.portState g = st
    ∧ s2.fld (Reg.GAR_PORT_STATUS g) 11 8 = 0 ∧ (s2.port g).waiting = [] ∧ (s2.port g).replay = []
    ∧ s2.fld (Reg.GAR_PORT_CODE g) 15 0 = Code.LINK_DOWN ∧ s2.cores = s.cores ∧ s2.mem.cells = s.mem.cells

/-- A training of a port fails with a code (R525): the port waits in DOWN, and the failure counts. -/
def FailsTraining (i : Instr) (s : State) (g src code : Nat) : Prop :=
  ∃ s2, exec i s = .next (State.raise s2 { src := src, code := code, inst := g }) ∧ s2.portState g = 1
    ∧ (s2.port g).attempts = (s.port g).attempts + 1 ∧ (s2.port g).ident = none ∧ s2.fld (Reg.GAR_PORT_CODE g) 15 0 = code
    ∧ s2.cores = s.cores ∧ s2.mem = s.mem ∧ ∀ p, p ≠ g → s2.port p = s.port p

/-- A write that the port configuration refuses (Table 15.9). -/
def RouteRefused (i : Instr) (s : State) : Prop :=
  exec i s = .next (State.raise (s.setFld Reg.GAR_PTP_STATUS 31 16 Code.ROUTE_CONFIG) { src := 0x3E, code := Code.ROUTE_CONFIG })

end Sys2Proof.Claims

open Sys2Proof.Claims in
/-- Ports are enabled, train, come into service or fail, leave service and are configured as chapter 15 says; refused
writes change nothing. For every port from READY on: EN 0 to 1 takes the port to TRAINING when features, device id and
cable are there, otherwise to DOWN; EN 1 to 0 takes it to DISABLED, out of service if it was in it; LANE_RESET
readmits its lanes at the next training. A training that completes with four lanes usable at both ends makes the port
UP, with two or three and LANE_DEGRADE at both ends DEGRADED, else it fails, as when its time runs out; a retry trains
again, or enters FAILED after ATTEMPTS failures. Loss of signal and too many uncorrectable codewords on an active lane
take a port out of service, and exclude the lane in the second case. A device id, a route and a PTP role are set, or
refused with ROUTE_CONFIG; a scan of lanes is listed, and its end sets the margins. (R524, R525, R526, R527, R530,
R531, R534, R535, R542, R662, 15 Table 15.9). -/
def Obligations.PortsTrainLeaveServiceAndAreConfigured : Prop :=
  (∀ (s : State) (port : PortId) (v : W32), s.ready = true →
    let g := port.toNat
    let ctrl := Reg.GAR_PORT_CTRL g
    let en := bit (s.reg ctrl) 31
    let kind := (mapGet ({} : Cable) s.cables (g / 4)).kind
    (en = false → (¬ LinkSet s g ∨ kind ≠ 2) → ∃ t, exec (.portEnable port v) s = .next t ∧ bit (t.reg ctrl) 31 = true
      ∧ (LinkSet s g → t.portState g = 2) ∧ (¬ LinkSet s g → t.portState g = 1)
      ∧ OtherRegs s t [ctrl, Reg.GAR_PORT_STATUS g] ∧ t = { s with regs := t.regs, ports := t.ports, cables := t.cables }
      ∧ (bits v.toNat 3 0 ≠ 0 → bits (t.reg ctrl) 3 0 = bits v.toNat 3 0)
      ∧ (bits v.toNat 15 8 ≠ 0 → bits (t.reg ctrl) 15 8 = bits v.toNat 15 8))
    ∧ (en = true → s.portUp g = false → ∃ t, exec (.portDisable port v) s = .next t ∧ bit (t.reg ctrl) 31 = false
      ∧ t.portState g = 0 ∧ OtherRegs s t [ctrl, Reg.GAR_PORT_STATUS g] ∧ t = { s with regs := t.regs, ports := t.ports })
    ∧ (en = true → s.portUp g = true → LeavesService (.portDisable port v) s g 0)
    ∧ (en = true → bit v.toNat 31 = true → ∃ t, exec (.laneReset port v) s = .next t ∧ (t.port g).readmit = true
      ∧ OtherRegs s t [ctrl] ∧ bit (t.reg ctrl) 31 = true ∧ t = { s with regs := t.regs, ports := t.ports }))
  ∧ (∀ (s : State) (port : PortId) (usable : BitVec 4) (lane : BitVec 2),
    let g := port.toNat
    let active := s.portUp g = true ∧ bit (s.fld (Reg.GAR_PORT_STATUS g) 11 8) lane.toNat = true
    (s.portState g = 2 → ∀ peer deg, (s.port g).ident = some (peer, deg) →
      let own := usable.toNat &&& (15 - s.fld (Reg.GAR_PORT_STATUS g) 7 4)
      let lanes := own &&& peer
      let n := (bitsOf lanes 4).length
      let s1 := s.emit (.control g (.ident (BitVec.ofNat 16 s.deviceId) port (BitVec.ofNat 4 own) (s.feature featDegrade)))
      let serves := n = 4 ∨ (2 ≤ n ∧ s.feature featDegrade = true ∧ deg = true)
      (serves → (s.port g).lastLanes ≤ n → ∃ t, exec (.trainingComplete port usable) s = .next t
        ∧ t = { s1 with regs := t.regs, ports := t.ports } ∧ t.portState g = (if n = 4 then 3 else 4)
        ∧ t.fld (Reg.GAR_PORT_STATUS g) 11 8 = lanes % 16 ∧ OtherRegs s t [Reg.GAR_PORT_STATUS g]
        ∧ (t.port g).seqNext = 0 ∧ (t.port g).attempts = 0 ∧ ∀ c, (t.port g).credits c = vcBuffer c)
      ∧ (serves → n < (s.port g).lastLanes →
        ∃ s2, exec (.trainingComplete port usable) s = .next (State.raise s2 { src := 0x37, code := Code.LINK_DEGRADED, inst := g })
          ∧ s2.portState g = (if n = 4 then 3 else 4) ∧ s2.fld (Reg.GAR_PORT_STATUS g) 11 8 = lanes % 16 ∧ s2.out = s1.out)
      ∧ (n < 2 ∨ (n < 4 ∧ (s.feature featDegrade = false ∨ deg = false)) →
        FailsTraining (.trainingComplete port usable) s g 0x38 Code.LINK_TRAIN_FAIL))
    ∧ (s.portState g = 2 → FailsTraining (.trainingTimeout port) s g 0x38 Code.LINK_TRAIN_FAIL)
    ∧ (s.portState g ≠ 2 → exec (.trainingTimeout port) s = .next s)
    ∧ (s.portState g = 1 → s.fld (Reg.GAR_PORT_CTRL g) 3 0 ≤ (s.port g).attempts → ∃ t, exec (.trainingRetry port) s = .next t
      ∧ OnlyRegs s t [Reg.GAR_PORT_STATUS g] ∧ t.portState g = 5)
    ∧ (s.portState g = 1 → (s.port g).attempts < s.fld (Reg.GAR_PORT_CTRL g) 3 0 → LinkSet s g → bit (s.reg (Reg.GAR_PORT_CTRL g)) 31 = true →
      (mapGet ({} : Cable) s.cables (g / 4)).kind ≠ 2 → ∃ t, exec (.trainingRetry port) s = .next t ∧ t.portState g = 2
        ∧ t = { s with regs := t.regs, ports := t.ports } ∧ OtherRegs s t [Reg.GAR_PORT_STATUS g]
        ∧ ((s.port g).readmit = true → t.fld (Reg.GAR_PORT_STATUS g) 7 4 = 0))
    ∧ (active → LeavesService (.lossOfSignal port lane) s g 1)
    ∧ (active → LeavesService (.laneUeLimit port lane) s g 1
      ∧ ∀ t, exec (.laneUeLimit port lane) s = .next t → bit (t.fld (Reg.GAR_PORT_STATUS g) 7 4) lane.toNat = true)
    ∧ (¬ active → exec (.lossOfSignal port lane) s = .next s ∧ exec (.laneUeLimit port lane) s = .next s))
  ∧ ∀ (s : State) (port : PortId) (v : W32) (id : W16) (lanes : BitVec 4) (lane : BitVec 2) (horiz vert : W16), s.ready = true →
    let g := port.toNat
    let n := bits v.toNat 15 0
    let role := bits v.toNat 31 30
    let idle := ∀ p, p < 16 → s.portState p ≠ 2 ∧ s.portUp p = false
    let roleOk := role ≠ 3 ∧ (role = 2 → ∀ p, p < 16 → p ≠ g → s.ptpRole p ≠ 2)
      ∧ (role ≠ 0 → s.feature featPtp = false → ∀ p, p < 16 → p ≠ g → s.ptpRole p = 0)
    (n ≠ 0xFFFF → idle → ∃ t, exec (.deviceIdWrite v) s = .next t ∧ t.deviceId = n ∧ t.cores = s.cores ∧ t.mem = s.mem)
    ∧ (n = 0xFFFF ∨ ¬ idle → RouteRefused (.deviceIdWrite v) s)
    ∧ (∃ t, exec (.routeWrite id v) s = .next t ∧ OnlyRegs s t [Reg.GAR_ROUTE id.toNat]
      ∧ t.reg (Reg.GAR_ROUTE id.toNat) = 2 ^ 30 * bits v.toNat 31 30 + bits v.toNat 7 0)
    ∧ (roleOk → ∃ t, exec (.ptpRoleWrite port v) s = .next t ∧ t.ptpRole g = role ∧ bits (t.reg (Reg.GAR_PORT_PTP g)) 15 0 = n
      ∧ OtherRegs s t [Reg.GAR_PORT_PTP g, Reg.GAR_PORT_DELAY g, Reg.GAR_PTP_STATUS] ∧ t = { s with regs := t.regs, ports := t.ports }
      ∧ (role = 2 → t.fld Reg.GAR_PTP_STATUS 4 0 = 16 + g))
    ∧ (¬ roleOk → RouteRefused (.ptpRoleWrite port v) s)
    ∧ exec (.marginScan port lanes) s = .next (s.onPort g fun q => { q with scan := q.scan ||| lanes.toNat })
    ∧ (bit (s.port g).scan lane.toNat = false → exec (.marginScanDone port lane horiz vert) s = .next s)
    ∧ (bit (s.port g).scan lane.toNat = true → ∃ t, exec (.marginScanDone port lane horiz vert) s = .next t
      ∧ t = { s with regs := t.regs, ports := t.ports } ∧ OtherRegs s t [Reg.GAR_LANE_MARGIN g lane.toNat]
      ∧ t.reg (Reg.GAR_LANE_MARGIN g lane.toNat) = 2 ^ 63 + 65536 * horiz.toNat + vert.toNat
      ∧ bit (t.port g).scan lane.toNat = false ∧ ∀ p, p ≠ g → t.port p = s.port p)

namespace Sys2Proof.Claims

/-- A REPLAY_REQ for a number is sent, not yet the eighth in succession (R522): the packet side waits for its REPLAY_START. -/
def AsksFor (s t : State) (g n : Nat) : Prop :=
  (t.port g).rxWait = some n ∧ (t.port g).asked = (n, if (s.port g).asked.1 = n then (s.port g).asked.2 + 1 else 1)
  ∧ t.reg (Reg.GAR_PORT_REPLAYS g) = plus1 (s.reg (Reg.GAR_PORT_REPLAYS g))
  ∧ ∃ a, t.out = s.out ++ a ++ [.control g (.replayReq (BitVec.ofNat 16 n))]

/-- The load of a Garrid transfer that a packet's data is for. -/
def DataFor (s : State) (p : Packet) (c : Nat) (l : Load) : Prop := s.loadFor p = some (c, l) ∧ l ∈ (s.ctx c).loads ∧ (s.ctx c).loads.Nodup

/-- A range of a context admits `n` bytes at an address with a permission, while the direction is enabled (R540, R541). -/
def Admits (s : State) (en c a n : Nat) (perm : Range → Bool) : Prop :=
  bit (s.reg Reg.GAR_BULK_CTRL) en = true ∧ (s.ctx c).state ≠ .free ∧ ∃ r, (s.ctx c).rangeAt a n = some r ∧ perm r = true

end Sys2Proof.Claims

open Sys2Proof.Claims in
/-- Control slots drive replay, credits, deskew and IDENT; bulk reads are answered and bulk data is written where a
range admits it. For a port in service: a bad flit sends a REPLAY_REQ for its number, unless one waits already, and
its codewords are counted; the request is repeated while it waits, REPLAY_START ends the wait, and the eighth request
in succession takes the port out of service. A REPLAY_REQ is answered with REPLAY_START and the buffered packets from
the number on; for a number that is not in the buffer, or for the eighth time, the port leaves service. LINK lets go
of what it acknowledges and gives its credits back. ALIGN stores the counter of its lane and counts the corrected
symbols; IDENT in training shows and keeps the peer's, and with the port's own device id fails the training. A
BULK_READ of up to 1 MiB that the serving context's range admits for reading is answered in BULK_DATA packets of up to
4 KiB, and counted; BULK_DATA of a load goes into its staging range, other data where RECV_CTX admits it for writing,
and is counted; the rest is reported and refused with a NACK of BULK_REFUSED. (R514, R518, R520, R521, R522, R523,
R528, R538, R539, R540, R541). -/
def Obligations.LinkSlotsReplayCreditsAndBulk : Prop :=
  (∀ (s : State) (port : PortId) (seq ack : W16) (cw lane : BitVec 2) (counts : List W16) (codeword corrected : W32),
    let g := port.toNat
    let q := s.port g
    let asks (n : Nat) : Nat := if q.asked.1 = n then q.asked.2 + 1 else 1
    let named := fullSeq q.acked seq.toNat
    let again := if q.askedBy.1 = named then q.askedBy.2 + 1 else 1
    let acks := fullSeq q.acked ack.toNat
    (s.portUp g = true →
      (q.rxWait = none → asks seq.toNat < 8 → ∃ t, exec (.badFlit port seq cw) s = .next t ∧ AsksFor s t g seq.toNat
        ∧ (cw ≠ 0 → t.reg (Reg.GAR_PORT_UE g) = min (s.reg (Reg.GAR_PORT_UE g) + cw.toNat) 0xFFFFFFFF) ∧ t.cores = s.cores)
      ∧ (q.rxWait = none → 8 ≤ asks seq.toNat → LeavesService (.badFlit port seq 0) s g 1)
      ∧ (q.rxWait ≠ none → ∃ t, exec (.badFlit port seq cw) s = .next t ∧ t.ports = s.ports
        ∧ (cw ≠ 0 → t.reg (Reg.GAR_PORT_UE g) = min (s.reg (Reg.GAR_PORT_UE g) + cw.toNat) 0xFFFFFFFF))
      ∧ (∀ n, q.rxWait = some n → (asks n < 8 → ∃ t, exec (.replayReqRepeat port) s = .next t ∧ AsksFor s t g n
          ∧ t = { s with regs := t.regs, ports := t.ports, out := t.out })
        ∧ (8 ≤ asks n → LeavesService (.replayReqRepeat port) s g 1))
      ∧ (named < q.seqNext → again < 8 → ∃ t, exec (.replayReq port seq) s = .next t ∧ t = { s with ports := t.ports, out := t.out }
        ∧ t.port g = { q with askedBy := (named, again) }
        ∧ t.out = s.out ++ [.control g (.replayStart seq)] ++ (q.replay.filter fun e => decide (named ≤ e.1)).map fun e => .garrid g e.2.wire)
      ∧ (q.seqNext ≤ named ∨ 8 ≤ again → LeavesService (.replayReq port seq) s g 1)
      ∧ (q.waiting = [] → ∃ t, exec (.link port ack counts) s = .next t ∧ t = { s with ports := t.ports }
        ∧ (∀ p, p ≠ g → t.port p = s.port p) ∧ t.port g = { q with acked := (t.port g).acked, replay := (t.port g).replay, peerFreed := (t.port g).peerFreed }
        ∧ (acks ≤ q.seqNext → (t.port g).acked = acks ∧ (t.port g).replay = q.replay.filter fun e => decide (acks ≤ e.1))
        ∧ (q.seqNext < acks → (t.port g).acked = q.acked ∧ (t.port g).replay = q.replay)
        ∧ ∀ v, mapGet 0 (t.port g).peerFreed v = match counts[v]? with
          | some c => if fullSeq (mapGet 0 q.peerFreed v) c.toNat ≤ mapGet 0 q.sent v then fullSeq (mapGet 0 q.peerFreed v) c.toNat
              else mapGet 0 q.peerFreed v
          | none => mapGet 0 q.peerFreed v))
    ∧ (q.rxWait = some seq.toNat → exec (.replayStart port seq) s = .next (s.onPort g fun q => { q with rxWait := none }))
    ∧ (q.rxWait ≠ some seq.toNat → exec (.replayStart port seq) s = .next s)
    ∧ (s.portState g = 2 ∨ s.portUp g = true → ∃ t, exec (.align port lane codeword corrected) s = .next t
      ∧ t = { s with regs := t.regs, ports := t.ports } ∧ OtherRegs s t [Reg.GAR_PORT_CE g]
      ∧ t.reg (Reg.GAR_PORT_CE g) = min (s.reg (Reg.GAR_PORT_CE g) + corrected.toNat) 0xFFFFFFFFFFFFFFFF
      ∧ ∀ k, mapGet 0 (t.port g).aligned k = if k = lane.toNat then codeword.toNat else mapGet 0 q.aligned k))
  ∧ (∀ (s : State) (port : PortId) (id : W16) (peer lanes : BitVec 4) (degrade : Bool),
    let g := port.toNat
    (s.portState g ≠ 2 → exec (.ident port id peer lanes degrade) s = .next s)
    ∧ (s.portState g = 2 → id.toNat ≠ s.deviceId → ∃ t, exec (.ident port id peer lanes degrade) s = .next t
      ∧ t = { s with regs := t.regs, ports := t.ports } ∧ OtherRegs s t [Reg.GAR_PORT_STATUS g]
      ∧ t.port g = { s.port g with ident := some (lanes.toNat, degrade) } ∧ t.portState g = 2
      ∧ t.fld (Reg.GAR_PORT_STATUS g) 31 16 = id.toNat ∧ t.fld (Reg.GAR_PORT_STATUS g) 15 12 = peer.toNat)
    ∧ (s.portState g = 2 → id.toNat = s.deviceId → FailsTraining (.ident port id peer lanes degrade) s g 0x3A Code.LINK_PEER_MISMATCH))
  ∧ ∀ (s s1 : State) (port : Option PortId) (p : Packet), ArrivesAtDevice s port p s1 →
    let a := p.dest.toNat + p.offset.toNat
    let n := p.bytes.toNat
    let k := p.data.length
    let refused (i : Instr) : Prop := exec i s
      = .next ((s1.raise { src := 0x3D, code := Code.BULK_REFUSED }).nackFor p Code.BULK_REFUSED)
    let reads := n ≤ 0x100000 ∧ Admits s 31 (s.fld Reg.GAR_BULK_CTRL 23 12) a n (·.rd)
    let writes := Admits s 30 (s.fld Reg.GAR_BULK_CTRL 11 0) a k (·.wr)
    (p.type = .bulkRead → reads → NoErrors s → ∃ l : List Packet, l.length = ceilDiv n 4096
      ∧ exec (.bulkRead port p) s = .next ((l.foldl State.post s1).count64 Reg.GAR_BULK_SERVED n)
      ∧ ∀ i, i < ceilDiv n 4096 → ∃ x, l[i]? = some x ∧ x.type = .bulkData ∧ x.ddev = p.sdev ∧ x.sdev = p.ddev ∧ x.xfer = p.xfer
        ∧ x.dest = 0 ∧ x.offset = p.offset + BitVec.ofNat 64 (4096 * i) ∧ x.data = s.bytesAt (a + 4096 * i) (min 4096 (n - 4096 * i)))
    ∧ (p.type = .bulkRead → ¬ reads → refused (.bulkRead port p))
    ∧ (p.type = .bulkData → (∀ c l, DataFor s p c l → p.offset.toNat + k ≤ l.bytes → NoErrors s → ∃ t, exec (.bulkData port p) s = .next t
        ∧ BytesAre s t (65536 * l.staging + p.offset.toNat) p.data ∧ t = { s1 with mem := t.mem, ctxs := t.ctxs }
        ∧ (t.ctx c).loads = (s.ctx c).loads.map fun y => if y = l then { l with got := l.got + k } else y)
      ∧ (s.loadFor p = none → writes → NoErrors s → ∃ t, exec (.bulkData port p) s = .next t ∧ BytesAre s t a p.data
        ∧ t = { s1 with mem := t.mem, regs := t.regs } ∧ OtherRegs s t [Reg.GAR_BULK_RECEIVED]
        ∧ t.reg Reg.GAR_BULK_RECEIVED = min (s.reg Reg.GAR_BULK_RECEIVED + k) 0xFFFFFFFFFFFFFFFF)
      ∧ (s.loadFor p = none → ¬ writes → refused (.bulkData port p)))

open Sys2Proof.Claims in
/-- A MASTER port sends Sync and Follow_Up and answers Delay_Req; a SLAVE port measures path and delay and disciplines
the counter; others are counted. For every port: a message reaches nothing while the port is out of service, and one
of another type, domain or SDO is only counted. At each interval a MASTER port sends a Sync and a Follow_Up with the
time of departure, and a SLAVE port a Delay_Req whose departure it keeps. At a SLAVE port a Sync gives its corrected
time of arrival, the Follow_Up of that Sync the path from the master, which less the mean path delay is the offset
that disciplines the counter where SOURCE names PTP, and the Delay_Resp of its last Delay_Req the mean path delay that
GAR_PORT_DELAY shows. A MASTER port answers a Delay_Req with a Delay_Resp that carries the time of arrival. A lost PTP
source is recorded and reported at the SLAVE port and turns LOCKED into HOLDOVER where SOURCE names PTP. (The
latencies of log entry 22 are free constants.). (R542, R543, R544, R545, R684). -/
def Obligations.PtpMessagesGiveOffsetAndDelay : Prop :=
  (∀ (s : State) (port : PortId) (m : PtpMsg),
    let g := port.toNat
    let q := s.port g
    let unit := unitsPerNs
    let domain := s.fld Reg.GAR_PTP_CFG 15 8
    let known := m.type.toNat ∈ [0, 1, 8, 9] ∧ m.sdo = 0 ∧ m.domain.toNat = domain
    let sends : List Instr := [.sync port m, .followUp port m, .delayReq port m, .delayResp port m]
    let out := (s.clk.time + Config.ptpLatency (2 * g) : Int).toNat
    let arrived : Int := s.clk.time - Config.ptpLatency (2 * g + 1)
    let corr : Int := 7000000 * sext 64 m.correction.toNat
    let stamp : Int := (unit * (1000000000 * m.sec.toNat + m.ns.toNat) : Nat)
    let asym : Int := 458752000 * sext 16 (s.reg (Reg.GAR_PORT_PTP g))
    let source := s.fld Reg.FTK_CTRL 6 5
    (s.portUp g = false → exec (.syncInterval port) s = .next s ∧ ∀ i ∈ sends, exec i s = .next s)
    ∧ (s.portUp g = true →
      (¬ known → ∀ i ∈ sends, ∃ t, exec i s = .next t ∧ OnlyRegs s t [Reg.GAR_PTP_DISCARDS]
        ∧ t.reg Reg.GAR_PTP_DISCARDS = plus1 (s.reg Reg.GAR_PTP_DISCARDS))
      ∧ (s.ptpRole g = 1 → exec (.syncInterval port) s = .next
          (({ s with out := s.out ++ [
              .ptp g { type := 0, domain := BitVec.ofNat 8 domain, seq := BitVec.ofNat 16 q.syncSeq },
              .ptp g { type := 8, domain := BitVec.ofNat 8 domain, seq := BitVec.ofNat 16 q.syncSeq, sec := BitVec.ofNat 48 (out / unit / 1000000000), ns := BitVec.ofNat 32 (out / unit % 1000000000), correction := BitVec.ofNat 64 (out % unit / 7000000) }] } : State).onPort g
            fun q => { q with syncSeq := (q.syncSeq + 1) % 65536 }))
      ∧ (s.ptpRole g = 2 → exec (.syncInterval port) s = .next
          ((s.emit (.ptp g { type := 1, domain := BitVec.ofNat 8 domain, seq := BitVec.ofNat 16 q.delaySeq, correction := BitVec.ofInt 64 (-asym / 7000000) })).onPort g
            fun q => { q with delaySeq := (q.delaySeq + 1) % 65536, delayTx := some (q.delaySeq, s.clk.time + Config.ptpLatency (2 * g)) }))
      ∧ (known → m.type = 0 → s.ptpRole g = 2 → exec (.sync port m) s = .next
          (({ s with clk := { s.clk with ptpLost := false } } : State).onPort g
            fun q => { q with syncRx := some (m.seq.toNat, arrived - corr - asym) }))
      ∧ (known → m.type = 8 → s.ptpRole g = 2 →
        (∀ n t2, q.syncRx = some (n, t2) → n ≠ m.seq.toNat → exec (.followUp port m) s = .next s)
        ∧ (q.syncRx = none → exec (.followUp port m) s = .next s)
        ∧ ∀ t2, q.syncRx = some (m.seq.toNat, t2) →
          let path := t2 - stamp - corr
          let s1 := s.onPort g fun q => { q with path := some path, syncRx := none }
          (source = 0 ∨ source = 2 → exec (.followUp port m) s = .next s1)
          ∧ (source = 1 → s.clk.loaded = true → s.clk.disc = .acquiring → s.fr.ticking = false →
            (path - q.delay).natAbs ≤ unit * s.fld Reg.FTK_LOCK_NS 7 0 → ∃ t, exec (.followUp port m) s = .next t
              ∧ t = { s1 with clk := t.clk, regs := t.regs } ∧ t.clk.time = s.clk.time
              ∧ (7 ≤ s.clk.lockRun → t.clk.disc = .locked)
              ∧ (s.clk.lockRun < 7 → t.clk.disc = .acquiring ∧ t.clk.lockRun = s.clk.lockRun + 1))
          ∧ (source = 1 → s.clk.loaded = false → s.clk.disc = .acquiring → s.fr.ticking = false → ∃ t, exec (.followUp port m) s = .next t
            ∧ (1000 * unit < (path - q.delay).natAbs →
              t.clk.loaded = true ∧ t.clk.time = (s.clk.time - (path - q.delay)).toNat ∧ t.reg Reg.FTK_OFFSET = 0)
            ∧ ((path - q.delay).natAbs ≤ 1000 * unit →
              t.clk.loaded = false ∧ t.clk.time = s.clk.time ∧ t.clk.remain = path - q.delay ∧ t.clk.disc = .acquiring)))
      ∧ (known → m.type = 1 → s.ptpRole g = 1 → exec (.delayReq port m) s = .next (s.emit (.ptp g
          { type := 9, domain := BitVec.ofNat 8 domain, seq := m.seq
            sec := BitVec.ofNat 48 (arrived.toNat / unit / 1000000000), ns := BitVec.ofNat 32 (arrived.toNat / unit % 1000000000)
            correction := m.correction - BitVec.ofNat 64 (arrived.toNat % unit / 7000000) })))
      ∧ (known → m.type = 9 → s.ptpRole g = 2 → ∀ n t3 path, q.delayTx = some (n, t3) → q.path = some path →
        (n ≠ m.seq.toNat → exec (.delayResp port m) s = .next s)
        ∧ (n = m.seq.toNat → let d := (path + (stamp - corr - t3)) / 2
          exec (.delayResp port m) s = .next ((s.onPort g fun q => { q with delay := d, delayTx := none }).setReg (Reg.GAR_PORT_DELAY g)
            (min 0xFFFFFFFF (d / unit).toNat))))))
  ∧ ∀ s : State,
    ((∀ g, g < 16 → s.ptpRole g ≠ 2) → exec .ptpLost s = .next s)
    ∧ ∀ g, g < 16 → s.ptpRole g = 2 → (∀ p, p < g → s.ptpRole p ≠ 2) →
      let source := s.fld Reg.FTK_CTRL 6 5
      let s2 := (s.setFld Reg.GAR_PTP_STATUS 31 16 Code.PTP_LOST).setFld (Reg.GAR_PORT_CODE g) 15 0 Code.PTP_LOST
      let t := State.raise s2 { src := 0x3C, code := Code.PTP_LOST, inst := g }
      (source = 0 ∨ source = 2 → exec .ptpLost s = .next t)
      ∧ (source = 1 ∨ source = 3 → ∃ u, exec .ptpLost s = .next u ∧ u = { t with clk := u.clk } ∧ u.clk.ptpLost = true
        ∧ u.clk.time = s.clk.time ∧ u.clk.disc = if s.clk.disc = .locked then .holdover else s.clk.disc)

namespace Sys2Proof.Claims

/-- A request is refused with a code of the reset stair (Table 17.9); nothing else changes. -/
def RstRefused (i : Instr) (s : State) : Prop := exec i s = .next (s.setFld Reg.RST_STATUS 31 16 Code.RESET_REFUSED)

/-- What RST_LAST shows of a step that ended with an outcome (Table 17.11). -/
def LastIs (s t : State) (st : Step) (target outcome : Nat) : Prop :=
  t.reg Reg.RST_LAST = (2 ^ 61 * st.kind.code + 2 ^ 59 * outcome + 2 ^ 55 * target + 2 ^ 48 * st.cause.src + 2 ^ 32 * st.cause.code
    + min ((s.monoNs - st.began) / 1000) 0xFFFFFFFF) % 2 ^ 64
  ∧ t.reg Reg.RST_LAST_FRAME = st.frame % 2 ^ 64

/-- The tables of a hall after the self-tests of a step (R36, R37, R588, R589): of the restored tables, a marked slot that serves or is
spare retires, any other slot that failed is UNUSABLE, and the hall is in service exactly where every gallery has 25 slots in
service. -/
def Settled (s t : State) (h : Nat) (failed : List Nat) : Prop :=
  (∀ j k, j < 10 → k < 27 → (27 * j + k) ∈ (s.hall h).marks → (s.restoredHall h).slotState j k ≤ 1 → (t.hall h).slotState j k = 2)
  ∧ (∀ j k, j < 10 → k < 27 → (27 * j + k) ∉ (s.hall h).marks → (27 * j + k) ∈ failed → (t.hall h).slotState j k = 3)
  ∧ (bit (t.reg Reg.DEV_HALL_ONLINE) h = true ↔ ∀ j, j < 10 → 25 ≤ ((t.hall h).slotsIn j 0).length)

/-- A die reset has begun on a die (Table 17.2): its halls' smaller steps are gone, their cores are in their reset state but for the ramp
of an array that was not idle, and the channels of its regions train. -/
def DieStarted (s t : State) (d : Nat) (cause : Cause) : Prop :=
  mapGet none t.dies d = some { kind := .die, began := s.monoNs, frame := s.frame, cause := cause }
  ∧ (∀ h, h < 16 → h / 4 = d → (t.hall h).step = none ∧ (t.hall h).replay = none ∧ t.regionOnline h = false
    ∧ ∀ c, c < 16 → t.chState (16 * h + c) = 1)
  ∧ ∀ n, n < 4000 → coreHall n / 4 = d → t.core n = { seq := { ramp := (t.core n).seq.ramp } }
    ∧ ((s.core n).seq.ramp = .idle → t.core n = {})

/-- A device reset has begun (R565, Table 17.2): no core, context or ring is left, bring-up begins again at phase ROM, and the
counters of the RST block, the queue of commands and what was sent are kept. -/
def DeviceStarted (s t : State) (cause : Cause) : Prop :=
  t.devStep = some { kind := .device, began := s.monoNs, frame := s.frame, cause := cause } ∧ t.cores = [] ∧ t.ctxs = [] ∧ t.rings = []
  ∧ t.dies = [] ∧ t.fld Reg.DEV_BRINGUP 31 28 = 0 ∧ t.pending = s.pending ∧ t.out = s.out
  ∧ t.reg Reg.RST_CNT_DEVICE = plus1 (s.reg Reg.RST_CNT_DEVICE) ∧ t.reg Reg.FLT_DEV_LATCH = s.reg Reg.FLT_DEV_LATCH

/-- A dump of the log has a serial number, which is the last one given and no other dump's. -/
def LastDump (s : State) (serial : Nat) (d : Dump) : Prop :=
  s.dumps.find? (fun e => e.serial == serial) = some d ∧ (s.dumps.map (·.serial)).Nodup ∧ serial = s.reg Reg.RST_DUMP_SERIAL

/-- The records of a dump become others; the head of the log follows its length (R592). -/
def RecordsAre (s t : State) (serial : Nat) (d : Dump) (l : List (Nat × Nat × Nat)) : Prop :=
  t.dumps = s.dumps.map (fun e => if e.serial = serial then { d with records := l } else e)
  ∧ t.reg Reg.RST_DUMP_HEAD = (d.offset + alignUp (dumpBytes l) 64) % 0x10000000

end Sys2Proof.Claims

open Sys2Proof.Claims in
/-- Reset requests wait or act, steps end or escalate, replays pass at their limit, and dumps are cut and copied as
chapter 17 says. RST_REQ for a hall that no step covers waits for a landing, the larger of two; a die and a device
reset begin at once; for a target in a step each is refused; the power-cycle request asserts its pin. A step that ends
settles the tables of its halls, is shown in RST_LAST and is over; a device reset ends once bring-up has. A step that
misses its deadline is counted and gives way to the next: compute-only to hall, hall to die, die to device, device to
the power-cycle pin, after the copy of the last dump where the driver gave a buffer. A replay without failure that has
run RST_REPLAY_LIMIT frames passes: the hall is free and its context resolved. A unit that does not answer gets an
UNREACHABLE record, and what is not read in time SKIPPED ones; DUMP_COPY lists a dump of the log, and the end of the
copy writes its bytes to the host, truncated to the buffer, or reports the failure. (R565, R566, R568, R570, R572,
R573, R582, R588, R591, R592, R593, 17 Table 17.2). -/
def Obligations.ResetStairAndDumps : Prop :=
  (∀ (s : State) (hall : HallId) (die : BitVec 4), s.answers = true →
    let h := hall.toNat
    let d := die.toNat
    let op : Cause := { src := 0x7F, frame := s.frame, first := s.frame }
    (s.inStep h = true → RstRefused (.rstReqCompute hall) s ∧ RstRefused (.rstReqHall hall) s)
    ∧ (s.inStep h = false →
      (∃ t, exec (.rstReqCompute hall) s = .next t ∧ t = { s with halls := t.halls } ∧ (∀ x, x ≠ h → t.hall x = s.hall x)
        ∧ t.hall h = { s.hall h with request := some (match (s.hall h).request with | none => (.compute, s.serial) | some r => (if r.1 = .hall then .hall else .compute, r.2)) })
      ∧ ∃ t, exec (.rstReqHall hall) s = .next t ∧ t = { s with halls := t.halls } ∧ (∀ x, x ≠ h → t.hall x = s.hall x)
        ∧ t.hall h = { s.hall h with request := some (.hall, ((s.hall h).request.map (·.2)).getD s.serial) })
    ∧ (3 < d ∨ s.dieInReset d = true → RstRefused (.rstReqDie die) s)
    ∧ (d ≤ 3 → s.dieInReset d = false → ∃ t, exec (.rstReqDie die) s = .next t ∧ DieStarted s t d op
      ∧ t.reg Reg.RST_CNT_DIE = plus1 (s.reg Reg.RST_CNT_DIE))
    ∧ (s.devStep ≠ none → RstRefused .rstReqDevice s)
    ∧ (s.devStep = none → ∃ t, exec .rstReqDevice s = .next t ∧ DeviceStarted s t op)
    ∧ ∃ t, exec .rstReqPowerCycle s = .next t ∧ t.powerCycleReq = true ∧ OtherRegs s t [Reg.RST_STATUS]
      ∧ t = { s with regs := t.regs, powerCycleReq := true, powerCycleCopy := false } ∧ bit (t.reg Reg.RST_STATUS) 7 = true
      ∧ t.fld Reg.RST_STATUS 31 16 = Code.POWER_CYCLE_REQ)
  ∧ (∀ (s : State) (hall : HallId) (die : BitVec 2) (failed : List (BitVec 8 × BitVec 5)) (st : Step),
    let h := hall.toNat
    let d := die.toNat
    ((s.hall h).step = none → exec (.resetStepEnd (.hall hall) failed) s = .next s ∧ exec (.resetDeadline (.hall hall)) s = .next s)
    ∧ ((s.hall h).step = some st →
      (∃ t, exec (.resetStepEnd (.hall hall) failed) s = .next t ∧ (t.hall h).step = none ∧ LastIs s t st h 0
        ∧ Settled s t h (failedOn h failed))
      ∧ ∃ t, exec (.resetDeadline (.hall hall)) s = .next t ∧ t.reg Reg.RST_CNT_ESCALATE = plus1 (s.reg Reg.RST_CNT_ESCALATE)
        ∧ (st.kind = .compute → LastIs s t st h 1 ∧ (t.hall h).step = some { kind := .hall, began := s.monoNs, frame := s.frame, cause := st.cause })
        ∧ (st.kind ≠ .compute → DieStarted s t (h / 4) st.cause))
    ∧ (mapGet none s.dies d = some st →
      (∃ t, exec (.resetStepEnd (.die die) failed) s = .next t ∧ mapGet none t.dies d = none ∧ LastIs s t st d 0
        ∧ ∀ x, x < 16 → x / 4 = d → Settled s t x (failedOn x failed))
      ∧ ∃ t, exec (.resetDeadline (.die die)) s = .next t ∧ t.reg Reg.RST_CNT_ESCALATE = plus1 (s.reg Reg.RST_CNT_ESCALATE)
        ∧ ∃ x, t.devStep = some x ∧ x.kind = .device ∧ x.cause = st.cause ∧ t.fld Reg.DEV_BRINGUP 31 28 = 0)
    ∧ (s.devStep = some st →
      (s.fld Reg.DEV_BRINGUP 31 28 < 7 → exec (.resetStepEnd .device failed) s = .next s)
      ∧ (7 ≤ s.fld Reg.DEV_BRINGUP 31 28 → ∃ t, exec (.resetStepEnd .device failed) s = .next t ∧ t.devStep = none ∧ LastIs s t st 0 0
        ∧ t = { s with regs := t.regs, devStep := none } ∧ OtherRegs s t [Reg.RST_LAST, Reg.RST_LAST_FRAME])
      ∧ (s.fld Reg.DEV_BRINGUP 31 28 ≠ 8 → ∃ t, exec (.resetDeadline .device) s = .next t ∧ t.devStep = none
        ∧ t.reg Reg.RST_CNT_ESCALATE = plus1 (s.reg Reg.RST_CNT_ESCALATE)
        ∧ (s.reg Reg.RST_DUMP_HOST_BYTES = 0 → s.dumpCopies = [] → t.powerCycleReq = true)
        ∧ (s.reg Reg.RST_DUMP_HOST_BYTES ≠ 0 → (∃ e ∈ s.dumps, e.offset = s.reg Reg.RST_DUMP_LAST) →
          t.powerCycleCopy = true ∧ t.dumpCopies = s.dumpCopies ++ [s.reg Reg.RST_DUMP_LAST] ∧ t.powerCycleReq = s.powerCycleReq))))
  ∧ (∀ (s : State) (hall : HallId),
    let h := hall.toNat
    ((s.hall h).replay = none → exec (.replayLimitReached hall) s = .next s)
    ∧ ∀ r, (s.hall h).replay = some r →
      (s.frame < r.startFrame + s.reg Reg.RST_REPLAY_LIMIT ∨ r.failed ≠ none → exec (.replayLimitReached hall) s = .next s)
      ∧ (r.startFrame + s.reg Reg.RST_REPLAY_LIMIT ≤ s.frame → r.failed = none → (s.hall h).holder = some r.ctx →
        ∃ t, exec (.replayLimitReached hall) s = .next t ∧ (∀ n, n < 4000 → coreHall n = h → (t.core n).cp.stopped = true)
          ∧ (t.hall h).holder = none ∧ (t.hall h).replay = none ∧ r.ctx ∈ (t.hall h).resolved
          ∧ ((∀ n, n < 4000 → coreHall n = h → (s.core n).seq.ramp = .idle) → t = { s with halls := t.halls, cores := t.cores }
            ∧ t.hall h = { s.hall h with holder := none, incoming := (s.hall h).incoming.filter (· ≠ r.ctx), replay := none, resolved := (s.hall h).resolved ++ [r.ctx] })))
  ∧ ∀ (s : State) (serial done v : W32) (kind : Byte) (index : W16),
    (∀ d, LastDump s serial.toNat d →
      ((kind.toNat, index.toNat, 0) ∈ d.records → ∃ s2, exec (.dumpReadTimeout serial kind index) s
          = .next (State.raise s2 { src := 0x58, code := Code.DUMP_UNREACHABLE })
        ∧ RecordsAre s s2 serial.toNat d (d.records.map fun r => if r.1 = kind.toNat ∧ r.2.1 = index.toNat then (r.1, r.2.1, 1) else r))
      ∧ ∃ t, exec (.dumpTimeLimit serial done) s = .next t
        ∧ RecordsAre s t serial.toNat d (d.records.take done.toNat ++ (d.records.drop done.toNat).map fun r => (r.1, r.2.1, 2)))
    ∧ ((∀ e ∈ s.dumps, e.serial ≠ serial.toNat) → exec (.dumpReadTimeout serial kind index) s = .next s
      ∧ exec (.dumpTimeLimit serial done) s = .next s)
    ∧ (s.answers = true → s.reg Reg.RST_DUMP_HOST_BYTES ≠ 0 → (∃ e ∈ s.dumps, e.offset = 64 * bits v.toNat 27 6) →
      ∃ t, exec (.dumpCopy v) s = .next t ∧ t = { s with regs := t.regs, dumpCopies := s.dumpCopies ++ [64 * bits v.toNat 27 6] }
        ∧ OtherRegs s t [Reg.RST_DUMP_STATUS] ∧ t.fld Reg.RST_DUMP_STATUS 31 28 = 8)
    ∧ (s.reg Reg.RST_DUMP_HOST_BYTES = 0 → exec (.dumpCopy v) s = .next s)
    ∧ (s.dumpCopies = [] → ∀ ok, exec (.dumpCopyDone ok) s = .next s)
    ∧ ∀ d rest, s.dumpCopies = d.offset :: rest → s.dumps.find? (fun e => e.offset == d.offset) = some d → s.powerCycleCopy = false →
      let room := s.reg Reg.RST_DUMP_HOST_BYTES
      let status (ok : Bool) : Nat := 8 * b2n (rest ≠ []) + 4 + 2 * b2n (decide (room < d.bytes.length)) + b2n (!ok)
      (s.pcie.linkUp = true → ∃ t, exec (.dumpCopyDone true) s = .next t ∧ t.dumpCopies = rest ∧ t.fld Reg.RST_DUMP_STATUS 31 28 = status true
        ∧ t.out = s.out ++ [.hostWrite (s.reg Reg.RST_DUMP_HOST) (d.bytes.take room)]
        ∧ t = { s with regs := t.regs, dumpCopies := rest, out := t.out })
      ∧ ∀ ok, ok = false ∨ s.pcie.linkUp = false →
        ∃ s2, exec (.dumpCopyDone ok) s = .next (State.raise s2 { src := 0x40, code := Code.HOST_DMA }) ∧ s2.dumpCopies = rest
        ∧ s2.fld Reg.RST_DUMP_STATUS 31 28 = status false ∧ s2 = { s with regs := s2.regs, dumpCopies := rest }

namespace Sys2Proof.Claims

/-- A mailbox command starts with the code that it will complete with (R612): SEC_MB_STATUS shows BUSY, and the command keeps its
argument and the window. -/
def MbStarted (s t : State) (op code : Nat) : Prop :=
  (∃ c, t.sec.cmd = some c ∧ c.op = op ∧ c.arg0 = s.reg Reg.SEC_MB_ARG0 ∧ c.code = code ∧ c.frame = s.frame
    ∧ c.window = (List.range 512).flatMap fun i => leBytes 8 (s.reg (Reg.SEC_MB_WINDOW i)))
  ∧ bit (t.reg Reg.SEC_MB_STATUS) 31 = true ∧ bit (t.reg Reg.SEC_MB_STATUS) 30 = false

/-- It starts, and nothing else in the device changes. -/
def MbOnly (i : Instr) (s : State) (op code : Nat) : Prop :=
  ∃ t, exec i s = .next t ∧ MbStarted s t op code ∧ OtherRegs s t [Reg.SEC_MB_STATUS]
    ∧ t = { s with regs := t.regs, sec := { s.sec with cmd := t.sec.cmd } }

/-- The command in progress is done with a code and an output (R612): its length and its code are shown with DONE, and the window
holds the output. -/
def MbEnded (ok : Bool) (s : State) (code : Nat) (out : List Byte) : Prop :=
  ∃ t, exec (.mailboxDone ok) s = .next t ∧ t.sec.cmd = none
    ∧ t.reg Reg.SEC_MB_STATUS = (2 ^ 30 + 65536 * out.length + code) % 2 ^ 64
    ∧ (∀ i, i < ceilDiv out.length 8 → i < 512 → t.reg (Reg.SEC_MB_WINDOW i) = leField out (8 * i) 8) ∧ t.halls = s.halls
    ∧ (code ≠ 0 → t.fld Reg.SEC_STATUS 31 16 = code % 65536)

end Sys2Proof.Claims

open Sys2Proof.Claims in
/-- Identity derivation selects the live record; mailbox commands start, wait and end with their code and output; live
writes come into use. The end of identity derivation in its phase makes identity READY with the key derived from the
seed where the seed passes its check and the key is that of the device certificate, FAILED with its event otherwise,
and takes the tables of the newest verified live copy, or those of delivery with CFG_LIVE_UNVERIFIED. While a mailbox
command is in progress another is refused with SEC_BUSY. Otherwise GET_CERT, ATTEST, MARK_RETIRE, SLOT_RETEST and
FLASH_WRITE start, with the code for a wrong argument, for missing identity or for the bank in use; MARK_RETIRE marks
its slot and SLOT_RETEST makes an UNUSABLE slot RETIRED at once. When a command ends its code and length are shown
with DONE and the window holds its output: the certificate, the report with the nonce of the command, nothing; one
that needs identity waits for it and fails without it, one that changed the live part waits for its write, and a flash
write that succeeded is in the flash. A live write that ends comes into use with its GEN, or fails its command. (R603,
R606, R607, R611, R612, R613, R614, R615, R616, 18 Table 18.4, 18 Table 18.5). -/
def Obligations.IdentityLiveRecordAndMailbox : Prop :=
  (∀ (s : State) (seed : BitVec 256),
    let bytes := beBytes 32 seed.toNat
    let checked := sha256 bytes = beBytes 32 Config.seedCheck.toNat
    let matches_ := (identityKey bytes).modulus = Config.certificateModulus (Config.certificate 0)
    let phase := s.fld Reg.DEV_BRINGUP 31 28
    let due := s.fld Reg.SEC_STATUS 9 8 = 0 ∧ (phase = 2 ∨ phase = 3)
    (¬ due → exec (.identityDerivationEnd seed) s = .next s)
    ∧ (due → checked → matches_ → ∃ t, exec (.identityDerivationEnd seed) s = .next t ∧ t.fld Reg.SEC_STATUS 9 8 = 1
      ∧ t.sec.key = some (identityKey bytes)
      ∧ (∀ c, s.sec.newest = some c → t.sec.inUse = some c ∧ bit (t.reg Reg.SEC_STATUS) 7 = true
        ∧ t.reg Reg.SEC_LIVE_GEN = c.gen % 2 ^ 64 ∧ ∀ h, h < 16 → (t.hall h).slots = (mapGet {} c.halls h).slots
          ∧ (t.hall h).remap = (mapGet {} c.halls h).remap ∧ (t.hall h).marks = (mapGet {} c.halls h).marks)
      ∧ (s.sec.newest = none → t.fld Reg.SEC_STATUS 31 16 = Code.CFG_LIVE_UNVERIFIED
        ∧ ∀ h, h < 16 → (t.hall h).slots = [] ∧ (t.hall h).remap = [] ∧ (t.hall h).marks = []))
    ∧ (due → ¬ (checked ∧ matches_) →
      ∃ t, exec (.identityDerivationEnd seed) s = .next t ∧ t.fld Reg.SEC_STATUS 9 8 = 2
        ∧ plus1 (s.reg (Reg.FLT_SRC_COUNT 0x56 0)) = t.reg (Reg.FLT_SRC_COUNT 0x56 0)
        ∧ t.fld Reg.SEC_STATUS 31 16 = Code.CFG_LIVE_UNVERIFIED ∧ ∀ h, h < 16 → (t.hall h).slots = [] ∧ (t.hall h).remap = []))
  ∧ (∀ s : State, s.power.good = true →
    let a := s.reg Reg.SEC_MB_ARG0
    let bank := s.fld Reg.SEC_STATUS 6 6
    let within (b : Nat) : Prop := imageOff b 0 ≤ a ∧ a < imageOff b 0 + 0x2000000
    (s.sec.cmd ≠ none → ∀ i ∈ [Instr.getCert, .attest, .markRetire, .slotRetest, .flashWrite],
      exec i s = .next (s.setFld Reg.SEC_STATUS 31 16 Code.SEC_BUSY))
    ∧ (s.sec.cmd = none → s.fld Reg.SEC_STATUS 2 0 ≠ 3 →
      MbOnly .getCert s 1 (if a ≤ 1 then 0 else Code.SEC_CMD_INVALID) ∧ MbOnly .attest s 2 0
      ∧ (s.fld Reg.SEC_STATUS 9 8 ≠ 1 → MbOnly .markRetire s 3 Code.SEC_NO_IDENTITY ∧ MbOnly .slotRetest s 4 Code.SEC_NO_IDENTITY)
      ∧ (s.fld Reg.SEC_STATUS 9 8 = 1 →
        (9 < bits a 11 8 ∨ 26 < bits a 20 16 → MbOnly .markRetire s 3 Code.SEC_CMD_INVALID ∧ MbOnly .slotRetest s 4 Code.SEC_CMD_INVALID)
        ∧ (bits a 11 8 ≤ 9 → bits a 20 16 ≤ 26 →
          let h := bits a 3 0
          let k := 27 * bits a 11 8 + bits a 20 16
          let st := (s.hall h).slotState (bits a 11 8) (bits a 20 16)
          (1 < st → MbOnly .markRetire s 3 Code.SEC_CMD_INVALID)
          ∧ (st ≤ 1 → k ∉ (s.hall h).marks → ∃ t, exec .markRetire s = .next t ∧ MbStarted s t 3 0 ∧ OtherRegs s t [Reg.SEC_MB_STATUS]
            ∧ t.hall h = { s.hall h with marks := (s.hall h).marks ++ [k] } ∧ (∀ x, x ≠ h → t.hall x = s.hall x)
            ∧ (t.sec.writing ≠ none))
          ∧ (st ≠ 3 → MbOnly .slotRetest s 4 Code.SEC_CMD_INVALID)
          ∧ (st = 3 → ∃ t, exec .slotRetest s = .next t ∧ MbStarted s t 4 0 ∧ (t.hall h).slotState (bits a 11 8) (bits a 20 16) = 2
            ∧ OtherRegs s t [Reg.SEC_MB_STATUS, Reg.HAL_REMAP_GEN h] ∧ (∀ x, x ≠ h → t.hall x = s.hall x))))
      ∧ (a % 4096 ≠ 0 → MbOnly .flashWrite s 5 Code.SEC_CMD_INVALID)
      ∧ (a % 4096 = 0 → within (1 - bank) → MbOnly .flashWrite s 5 0)
      ∧ (a % 4096 = 0 → ¬ within (1 - bank) → MbOnly .flashWrite s 5 Code.SEC_BANK_ACTIVE)))
  ∧ (∀ (s : State) (ok : Bool),
    let identity := s.fld Reg.SEC_STATUS 9 8
    (s.sec.cmd = none → exec (.mailboxDone ok) s = .next s)
    ∧ ∀ c, s.sec.cmd = some c →
      (c.code ≠ 0 → MbEnded ok s c.code [])
      ∧ (c.code = 0 → c.op = 1 → (c.arg0 = 0 ∧ identity = 0 → exec (.mailboxDone ok) s = .next s)
        ∧ (c.arg0 = 0 ∧ identity = 2 → MbEnded ok s Code.SEC_NO_IDENTITY [])
        ∧ (c.arg0 ≠ 0 ∨ identity = 1 → MbEnded ok s 0 ((Config.certificate c.arg0).take 4096)))
      ∧ (c.code = 0 → c.op = 2 → (identity = 0 → exec (.mailboxDone ok) s = .next s)
        ∧ (identity = 2 → MbEnded ok s Code.SEC_NO_IDENTITY [])
        ∧ (identity = 1 → MbEnded ok s 0 (s.report c)
            ∧ ((s.report c).drop 32).take (min 32 c.window.length) = c.window.take 32))
      ∧ (c.code = 0 → c.op = 5 → (ok = true → MbEnded ok s 0 [] ∧ ∀ t, exec (.mailboxDone ok) s = .next t → c.window ≠ [] →
          ∀ j, j < 4096 → t.flashByte (4096 * (c.arg0 / 4096) + j) = c.window.getD j 0)
        ∧ (ok = false → MbEnded ok s Code.SEC_FLASH_FAIL [] ∧ ∀ t, exec (.mailboxDone ok) s = .next t → t.sec.flash = s.sec.flash))
      ∧ (c.code = 0 → c.op = 3 ∨ c.op = 4 → (s.sec.writing ≠ none → exec (.mailboxDone ok) s = .next s)
        ∧ (s.sec.writing = none → MbEnded ok s 0 [])))
  ∧ ∀ s : State,
    (s.sec.writing = none → ∀ ok, exec (.liveRecordWriteEnd ok) s = .next s)
    ∧ ∀ k c, s.sec.writing = some (k, c) →
      (s.sec.changed = false → ∃ t, exec (.liveRecordWriteEnd true) s = .next t ∧ t = { s with regs := t.regs, sec := t.sec }
        ∧ t.sec.inUse = some c ∧ t.sec.writing = none ∧ t.sec.copy k = c ∧ (k ≤ 1 → t.sec.copy (1 - k) = s.sec.copy (1 - k))
        ∧ t.reg Reg.SEC_LIVE_GEN = c.gen % 2 ^ 64 ∧ bit (t.reg Reg.SEC_STATUS) 7 = true ∧ bit (t.reg Reg.PWR_MARGIN_STATUS) 15 = true)
      ∧ (s.sec.changed = false → ∃ t, exec (.liveRecordWriteEnd false) s = .next t ∧ t.sec.writing = none ∧ t.sec.live0 = s.sec.live0
        ∧ t.sec.live1 = s.sec.live1 ∧ t.sec.inUse = s.sec.inUse
        ∧ ∀ m, s.sec.cmd = some m → m.code = 0 → m.op = 3 ∨ m.op = 4 → t.sec.cmd = some { m with code := Code.SEC_FLASH_FAIL })
      ∧ (s.sec.changed = true → ∀ ok, ∃ t, exec (.liveRecordWriteEnd ok) s = .next t ∧ t.sec.writing ≠ none ∧ t.sec.changed = false)

open Sys2Proof.Claims in
/-- Power classes, the brake, input and rail supervision, telemetry, thresholds and path alarms act as chapter 19
says. From READY on a power class up to 3 waits for a landing, or is in force at once while RUN is 0, with its event
when its duty is less than 64; classes 4 to 7 are ignored. The brake sets DUTY 8 and makes the frame a late-start
frame of every hall; its rise ends it. Undervoltage, overvoltage, a rail fault and a droop are reported while the
module has power. An input sample moves the peaks, and one above 3,900 W that no excursion covers is counted, reported
and lowers SMB_ALERT_N. A telemetry update shows the input, the rails and the sensors, adds the energy, begins an
excursion above the class limit, which is counted and reported once after 10 ms, and begins and ends the temperature
events. A maintenance request or interval makes the next landing a maintenance landing. A path reading is kept; a
slack below ALARM_PS of a slot in service is counted and raises the target of its hall by 2.5 mV up to 800 mV, or
marks the slot. (R620, R621, R622, R626, R627, R628, R629, R630, R632, R635, 19 Table 19.2, 19 Table 19.3). -/
def Obligations.PowerClassesSupervisionAndMargins : Prop :=
  (∀ (s : State) (v : W32), s.ready = true →
    let c := bits v.toNat 2 0
    (3 < c → exec (.classRequest v) s = .next s)
    ∧ (c ≤ 3 → bit (s.reg Reg.FTK_CTRL) 0 = true → ∃ t, exec (.classRequest v) s = .next t ∧ OtherRegs s t [Reg.PWR_CLASS_REQ]
      ∧ t = { s with regs := t.regs, power := { s.power with classReqs := s.power.classReqs ++ [(s.serial, c)] } }
      ∧ t.reg Reg.PWR_CLASS_REQ = c)
    ∧ (c ≤ 3 → bit (s.reg Reg.FTK_CTRL) 0 = false → ∃ s2, OnlyRegs s s2 [Reg.PWR_CLASS_REQ, Reg.PWR_STATUS]
      ∧ s2.fld Reg.PWR_STATUS 2 0 = c ∧ s2.reg Reg.PWR_CLASS_REQ = c
      ∧ s2.fld Reg.PWR_STATUS 14 8 = (if s.power.brake = true ∨ s.power.braking = true then s.fld Reg.PWR_STATUS 14 8 else 64 - 16 * c)
      ∧ exec (.classRequest v) s = .next (if c = 0 then s2 else s2.raise { src := 0x50 }))
    ∧ exec .maintenanceRequest s = .next { s with power := { s.power with maintenance := true } }
    ∧ exec .maintenanceInterval s = .next { s with power := { s.power with maintenance := true } })
  ∧ (∀ (s : State) (rail : BitVec 6) (hall : HallId),
    (s.power.good = false → exec .pwrBrakeNFall s = .next { s with power := { s.power with brake := true } }
      ∧ exec .inputUv s = .next s ∧ exec .inputOv s = .next s ∧ exec (.railFault rail) s = .next s ∧ exec (.hallDroop hall) s = .next s)
    ∧ (s.power.good = true →
      (∃ t, exec .pwrBrakeNFall s = .next t ∧ OtherRegs s t [Reg.PWR_STATUS] ∧ bit (t.reg Reg.PWR_STATUS) 16 = true
        ∧ t = { s with regs := t.regs, halls := t.halls, power := { s.power with brake := true, braking := true } }
        ∧ t.fld Reg.PWR_STATUS 14 8 = 8 ∧ ∀ h, h < 16 → t.hall h = { s.hall h with lateStart := s.fr.ticked || (s.hall h).lateStart })
      ∧ exec .inputUv s = .next (s.raise { src := 0x4C }) ∧ exec .inputOv s = .next (s.raise { src := 0x4D })
      ∧ (rail.toNat ≤ 33 → exec (.railFault rail) s = .next (s.raise { src := 0x4E, inst := rail.toNat }))
      ∧ (33 < rail.toNat → exec (.railFault rail) s = .next s)
      ∧ exec (.hallDroop hall) s = .next (s.raise { src := 0x26, hall := hall.toNat }))
    ∧ ∃ t, exec .pwrBrakeNRise s = .next t ∧ t = { s with regs := t.regs, power := { s.power with brake := false } }
      ∧ OtherRegs s t [Reg.PWR_STATUS] ∧ bit (t.reg Reg.PWR_STATUS) 16 = false ∧ t.fld Reg.PWR_STATUS 14 0 = s.fld Reg.PWR_STATUS 14 0)
  ∧ (∀ (s : State) (watts : W16), s.power.good = true →
    let w := watts.toNat
    ∃ s2, OtherRegs s s2 [Reg.PWR_INPUT_PEAK, Reg.PWR_TRANSIENTS] ∧ s2.reg Reg.PWR_INPUT_PEAK = max w (s.reg Reg.PWR_INPUT_PEAK)
      ∧ s2 = { s with regs := s2.regs, power := { s.power with smbPeak := max w s.power.smbPeak, peakOver := decide (3900 < w), alert := s2.power.alert } }
      ∧ (3900 < w ∧ s.power.peakOver = false → exec (.inputSample watts) s = .next (State.raise s2 { src := 0x4F }) ∧ s2.power.alert = true
        ∧ s2.reg Reg.PWR_TRANSIENTS = plus1 (s.reg Reg.PWR_TRANSIENTS))
      ∧ (w ≤ 3900 ∨ s.power.peakOver = true → exec (.inputSample watts) s = .next s2 ∧ s2.power.alert = s.power.alert
        ∧ s2.reg Reg.PWR_TRANSIENTS = s.reg Reg.PWR_TRANSIENTS))
  ∧ (∀ (s : State) (x : Telemetry), s.power.good = true →
    let w := x.watts.toNat
    let limit := if s.power.braking = true then 1975 else 3200 - 350 * s.fld Reg.PWR_STATUS 2 0
    let shows (t : State) : Prop := t.reg Reg.PWR_INPUT = 65536 * x.mv.toNat + w
      ∧ t.reg Reg.PWR_ENERGY = min (s.reg Reg.PWR_ENERGY + x.energy.toNat) 0xFFFFFFFFFFFFFFFF
      ∧ ∀ r e, r < 34 → x.rails[r]? = some e → t.reg (Reg.PWR_RAIL r) = 2 ^ 48 * s.railSet r % 2 ^ 64 + 2 ^ 32 * e.1.toNat + e.2.toNat
    (∃ t, exec (.telemetryUpdate x) s = .next t ∧ ∀ (n : Nat) (v : W16) (thr src : Nat), n < 30 → x.temps[n]? = some (some v) → (thr, src) ∈ tempThresholds n →
      (16 * (thr : Int) ≤ sext 16 v.toNat → 128 * n + src ∈ t.power.hot ∧ (128 * n + src ∉ s.power.hot → t.power.alert = true))
      ∧ (sext 16 v.toNat ≤ 16 * ((thr : Int) - 5) → 128 * n + src ∉ t.power.hot))
    ∧ ((∀ (n : Nat) (v : W16), x.temps[n]? = some (some v) → sext 16 v.toNat < 16 * 85) → s.power.hot = [] →
      (w ≤ limit → ∃ t, exec (.telemetryUpdate x) s = .next t ∧ shows t
        ∧ t = { s with regs := t.regs, power := { s.power with overSince := none, overNoted := false } }
        ∧ ∀ (n : Nat) (v : W16), n < 30 → x.temps[n]? = some (some v) → t.reg (Reg.PWR_TEMP n) = 2 ^ 31 + v.toNat)
      ∧ (limit < w → s.power.overSince = none → ∃ t, exec (.telemetryUpdate x) s = .next t ∧ shows t
        ∧ t = { s with regs := t.regs, power := { s.power with overSince := some s.monoNs } })
      ∧ (∀ t0, limit < w → s.power.overSince = some t0 → s.power.overNoted = true ∨ s.monoNs ≤ t0 + 10000000 →
        ∃ t, exec (.telemetryUpdate x) s = .next t ∧ shows t ∧ t = { s with regs := t.regs })
      ∧ (∀ t0, limit < w → s.power.overSince = some t0 → s.power.overNoted = false → t0 + 10000000 < s.monoNs →
        ∃ s2, exec (.telemetryUpdate x) s = .next (State.raise s2 { src := 0x4F }) ∧ shows s2
          ∧ s2 = { s with regs := s2.regs, power := { s.power with overNoted := true, alert := true } }
          ∧ s2.reg Reg.PWR_TRANSIENTS = plus1 (s.reg Reg.PWR_TRANSIENTS))))
  ∧ ∀ (s : State) (r : PathReading), s.ready = true → r.gallery.toNat < 160 → r.slot.toNat < 27 →
    let h := r.gallery.toNat / 10
    let j := r.gallery.toNat % 10
    let k := 27 * r.gallery.toNat + r.slot.toNat
    let target := s.fld (Reg.PWR_VCORE_PLAN h) 31 16
    let quiet := s.inStep h = true ∨ (s.hall h).slotState j r.slot.toNat ≠ 0 ∨ (s.fld Reg.PWR_MARGIN_CTRL 15 8 : Int) ≤ sext 16 r.slack.toNat
    let marked := 27 * j + r.slot.toNat ∈ (s.hall h).marks
    ∃ t, exec (.pathDelaySample [r]) s = .next t ∧ mapGet 0 t.power.slacks k = r.slack.toNat ∧ mapGet 0 t.power.vreqs k = r.vreq.toNat
      ∧ (∀ i, i ≠ k → mapGet 0 t.power.slacks i = mapGet 0 s.power.slacks i ∧ mapGet 0 t.power.vreqs i = mapGet 0 s.power.vreqs i)
      ∧ (quiet → t.reg (Reg.FLT_SRC_COUNT 0x23 h) = s.reg (Reg.FLT_SRC_COUNT 0x23 h) ∧ t.fld (Reg.PWR_VCORE_PLAN h) 31 16 = target
        ∧ t.halls = s.halls)
      ∧ (¬ quiet → t.reg (Reg.FLT_SRC_COUNT 0x23 h) = plus1 (s.reg (Reg.FLT_SRC_COUNT 0x23 h))
        ∧ (¬ marked → target ≠ 0 → target < 3200 → t.fld (Reg.PWR_VCORE_PLAN h) 31 16 = min 3200 (target + 10))
        ∧ (¬ marked → 3200 ≤ target → 27 * j + r.slot.toNat ∈ (t.hall h).marks ∧ t.fld (Reg.PWR_VCORE_PLAN h) 31 16 = target))

namespace Sys2Proof.Claims

/-- The module is off (R645): every state is lost but what the flash holds, the plugged cables and the level of the brake pin; the
queue of commands and what was sent stay. -/
def IsOff (s t : State) : Prop :=
  t.power.good = false ∧ t.power.brake = s.power.brake ∧ t.cores = [] ∧ t.ctxs = [] ∧ t.rings = [] ∧ t.halls = [] ∧ t.regs = []
  ∧ t.mem = State.reset.mem ∧ t.pending = s.pending ∧ t.out = s.out ∧ t.sec.flash = s.sec.flash ∧ t.sec.live0 = s.sec.live0
  ∧ t.sec.live1 = s.sec.live1 ∧ t.sec.writing = none
  ∧ ∀ d, d < 4 → (t.cable d).present = (s.cable d).present ∧ (t.cable d).vcbl = false

end Sys2Proof.Claims

open Sys2Proof.Claims in
/-- The power pins ramp and turn the module off, cables give and take service, and bring-up passes its phases to READY
or stops. PWR_EN starts the ramp; its end starts bring-up with the registers at reset and VCBL on the plugged
connectors, its failure locks PWR_EN out until it falls; PWR_EN falling or the loss of the input turns the module off,
where only the flash, the plugged cables and the pins stay. A cable plugged in gets VCBL and its waiting ports train;
one removed, or an overload, takes its ports out of service. Bring-up: ROM chooses the bank with the higher VERSION
that verifies, IMAGES starts the channels, HBM gives every channel SERVICE or FAILED, IDENTITY ends with derivation,
MARGIN sets each setpoint to its target, SLOTS settles the tables, and KAT without a wrong result reaches READY with
FLT_STATUS.READY and BOOT RUNNING; a bank, a record or an image that fails stops boot with its code; a result of
another phase changes nothing. A private tick of a known-answer run that has not ended is counted, and each hall whose
next unit has its input runs it; bring-up that is late asks for a power cycle. (R603, R604, R644, R645, R646, R661,
R664, R668, R673, R677, R678, R679). -/
def Obligations.PowerPinsCablesAndBringup : Prop :=
  (∀ s : State,
    (s.power.en = true ∨ s.power.good = true → exec .pwrEnRise s = .next s)
    ∧ (s.power.en = false → s.power.good = false →
      exec .pwrEnRise s = .next { s with power := { s.power with en := true, ramping := !s.power.lockout } })
    ∧ (s.power.ramping = false → exec .pwrGoodRelease s = .next s ∧ exec .railRampTimeout s = .next s)
    ∧ (s.power.ramping = true →
      (∃ t, exec .pwrGoodRelease s = .next t ∧ t = { s with regs := State.reset.regs, power := t.power, bring := t.bring, cables := t.cables }
        ∧ t.power = { good := true, en := true, brake := s.power.brake } ∧ t.bring = { began := s.monoNs } ∧ t.phase = 0
        ∧ ∀ d, d < 4 → t.cable d = { s.cable d with vcbl := (s.cable d).present })
      ∧ exec .railRampTimeout s = .next { s with power := { s.power with ramping := false, lockout := true } })
    ∧ (∃ t, exec .pwrEnFall s = .next t ∧ t.power.en = false ∧ t.power.ramping = false ∧ t.power.lockout = false
      ∧ (s.power.good = true → IsOff s t ∧ t.powerCycleReq = s.powerCycleReq) ∧ (s.power.good = false → t = { s with power := t.power }))
    ∧ (∃ t, exec .inputPowerOff s = .next t ∧ t.powerCycleReq = false ∧ (s.power.good = true → IsOff s t ∧ t.power.en = s.power.en)
      ∧ (s.power.good = false → t = { s with powerCycleReq := false }))
    ∧ exec .refclkLoss s = .next (if s.power.good = true then s.raise { src := 0x5F } else s))
  ∧ (∀ (s : State) (cbl kind : BitVec 2),
    let d := cbl.toNat
    ((s.cable d).present = true → exec (.cblPrsntNLow cbl kind) s = .next s)
    ∧ ((s.cable d).present = false → kind.toNat < 2 → ∃ t, exec (.cblPrsntNLow cbl kind) s = .next t
      ∧ t.cable d = { s.cable d with present := true, vcbl := s.power.good, kind := kind.toNat }
      ∧ t = { s with regs := t.regs, ports := t.ports, cables := t.cables }
      ∧ ∀ g, g < 16 → t.portState g = if g / 4 = d ∧ s.portState g = 1 ∧ (s.port g).attempts = 0 ∧ s.power.good = true ∧ s.deviceId ≠ 0xFFFF
          ∧ bit (s.reg (Reg.GAR_PORT_CTRL g)) 31 = true ∧ bit (s.reg Reg.DEV_FEATURE_CTRL) 0 = true then 2 else s.portState g)
    ∧ (∃ t, exec (.cblPrsntNHigh cbl) s = .next t ∧ (t.cable d).present = false ∧ (t.cable d).vcbl = false ∧ t.cores = s.cores
      ∧ ∀ g, g < 16 → t.portState g = if g / 4 = d ∧ (s.portState g = 2 ∨ s.portUp g = true) then 1 else s.portState g)
    ∧ ((s.cable d).vcbl = false → exec (.vcblOverload cbl) s = .next s)
    ∧ ((s.cable d).vcbl = true → ∃ t, exec (.vcblOverload cbl) s = .next t ∧ (t.cable d).vcbl = false
      ∧ (t.cable d).present = (s.cable d).present ∧ t.cores = s.cores
      ∧ ∀ g, g < 16 → g / 4 = d → (1 ≤ s.portState g → s.portState g ≤ 4 → t.portState g = 1
        ∧ t.fld (Reg.GAR_PORT_CODE g) 15 0 = Code.LINK_TRAIN_FAIL) ∧ (s.portState g = 0 ∨ s.portState g = 5 → t.portState g = s.portState g)))
  ∧ (∀ (s : State) (r : PhaseResult), s.power.good = true →
    let p := s.phase
    let does (P : State → Prop) : Prop := ∃ t, exec (.bringupPhaseEnd r) s = .next t ∧ P t
    let stops (code : Nat) : Prop := does fun t => t.phase = 8 ∧ t.fld Reg.SEC_STATUS 2 0 = 3 ∧ t.fld Reg.SEC_STATUS 31 16 = code % 65536
    let a := s.imageCode 0 0
    let b := s.imageCode 1 0
    let codes := [1, 2, 3].map (s.imageCode s.bank)
    (r = .rom →
      (p ≠ 0 → exec (.bringupPhaseEnd r) s = .next s)
      ∧ (p = 0 → a ≠ 0 → b ≠ 0 → stops a)
      ∧ (p = 0 → a = 0 ∨ b = 0 → does fun t => t.phase = 1 ∧ t.fld Reg.SEC_STATUS 2 0 = 1 ∧ OnlyRegs s t [Reg.DEV_BRINGUP, Reg.SEC_STATUS]
        ∧ t.fld Reg.SEC_STATUS 6 6 = if a ≠ 0 then 1 else if b ≠ 0 then 0 else b2n (decide (s.imageVersion 0 0 < s.imageVersion 1 0))))
    ∧ (r = .images →
      (p ≠ 1 → exec (.bringupPhaseEnd r) s = .next s)
      ∧ (p = 1 → s.factoryOk = false → stops Code.CONFIG_FACTORY_FAIL)
      ∧ (p = 1 → s.factoryOk = true → ∀ c, codes.find? (fun c => decide (c ≠ 0)) = some c → stops c)
      ∧ (p = 1 → s.factoryOk = true → (∀ c ∈ codes, c = 0) → does fun t => t.phase = 2 ∧ (∀ c, c < 256 → t.chState c = 1)
        ∧ t.reg Reg.SEC_SERIAL = s.factorySerial ∧ t = { s with regs := t.regs }))
    ∧ (∀ failed, r = .hbm failed → p = 2 ∨ p = 3 → s.bring.hbmDone = false → does fun t => t.bring.hbmDone = true
      ∧ t.phase = (if s.bring.identityDone = true then 4 else 3)
      ∧ (∀ c, c < 256 → t.chState c = if s.chState c = 4 ∨ BitVec.ofNat 8 c ∈ failed then 4 else 2)
      ∧ ∀ q, q < 16 → (t.regionOnline q = true ↔ ∀ i, i < 16 → t.chState (16 * q + i) = 2))
    ∧ (r = .identity → p = 2 ∨ p = 3 → s.bring.identityDone = false → s.fld Reg.SEC_STATUS 9 8 ≠ 0 → does fun t =>
      t.bring = { s.bring with identityDone := true } ∧ t.phase = (if s.bring.hbmDone = true then 4 else 2) ∧ OtherRegs s t [Reg.DEV_BRINGUP])
    ∧ (∀ l, r = .margin l → (p ≠ 4 → exec (.bringupPhaseEnd r) s = .next s)
      ∧ (p = 4 → does fun t => t.phase = 5 ∧ ∀ h, h < 16 → t.setpoint h = t.fld (Reg.PWR_VCORE_PLAN h) 31 16))
    ∧ (∀ failed, r = .slots failed → (p ≠ 5 → exec (.bringupPhaseEnd r) s = .next s)
      ∧ (p = 5 → does fun t => (∀ h, h < 16 → Settled s t h (failedOn h failed))
        ∧ t.phase = if t.fld Reg.DEV_HALL_ONLINE 15 0 = 0 then 7 else 6))
    ∧ (∀ wrong, r = .kat wrong → (p ≠ 6 ∨ s.katOver = false → exec (.bringupPhaseEnd r) s = .next s)
      ∧ (p = 6 → s.katOver = true → (∀ c ∈ wrong, s.online (hallOf c.x.toNat c.y.toNat) = false) → does fun t => t.phase = 7 ∧ s.ready = false ∧ t.ready = true
        ∧ t.fld Reg.FLT_STATUS 31 31 = 1 ∧ t.fld Reg.SEC_STATUS 2 0 = 2 ∧ t.halls = s.halls
        ∧ t.fld Reg.DEV_SELFTEST 47 32 = 0xFFFF - s.reg Reg.MEM_REGION_ONLINE)
      ∧ (∀ c, wrong = [c] → p = 6 → s.katOver = true → s.bring.katRuns = 0 → c.x.toNat < 80 → c.y.toNat < 50 →
        let h := hallOf c.x.toNat c.y.toNat
        let j := galleryOf c.x.toNat c.y.toNat % 10
        s.online h = true → (s.hall h).slotOf j (posOf c.x.toNat c.y.toNat) < 27 → does fun t => t.bring.katRuns = 1
          ∧ (t.hall h).slotState j ((s.hall h).slotOf j (posOf c.x.toNat c.y.toNat)) = 3)))
  ∧ ∀ s : State,
    (s.power.good = true → s.phase = 6 → s.katOver = false → ∃ t, exec .katPrivateTick s = .next t ∧ OtherRegs s t [Reg.DEV_SELFTEST]
      ∧ t = { s with regs := t.regs, bring := { s.bring with katUnits := t.bring.katUnits } }
      ∧ (∀ h i p u, (s.katRun.zipIdx.find? fun e => e.1.1 == h) = some ((h, i), p) → katUnit s.katRun.length p i = some u →
        mapGet 0 t.bring.katUnits h = if katInput s.katRun p u = true then i + 1 else i)
      ∧ t.fld Reg.DEV_SELFTEST 15 0 = min 0xFFFF (s.fld Reg.DEV_SELFTEST 15 0 + 1))
    ∧ (s.power.good = false ∨ s.phase ≠ 6 ∨ s.katOver = true → exec .katPrivateTick s = .next s)
    ∧ (s.power.good = false ∨ 7 ≤ s.phase → exec .bringupTimeout s = .next s)
    ∧ (s.power.good = true → s.phase < 7 → ∃ t, exec .bringupTimeout s = .next t ∧ t.devStep = none
      ∧ t.reg Reg.RST_CNT_ESCALATE = plus1 (s.reg Reg.RST_CNT_ESCALATE)
      ∧ (s.reg Reg.RST_DUMP_HOST_BYTES = 0 → s.dumpCopies = [] → t.powerCycleReq = true))

namespace Sys2Proof.Claims

/-- What every step keeps: the memory stands in its canonical form, addresses rising and no byte listed that an unlisted address
reads as. -/
def Inv (s : State) : Prop := Memory.wf s.mem.cells = true

end Sys2Proof.Claims

open Sys2Proof.Claims in
/-- A step runs the command at the front of the queue on the state with the rest of the queue; on an empty queue one
core cycle passes. For every command c, every state and every rest of the queue: a step of the state with c at the
front of its queue is exec of c on the state with the rest of the queue. With nothing waiting the step completes, and
only the clocks move: the free-running clock by one core cycle of 4/7 ns, the time counter, once loaded, by a cycle
with the frequency correction held and a slew towards the offset left, together corrected by at most 50 parts per
million (the step on an empty queue is the model's choice, log entry 11; the correction is free, log entry 5). (R48,
R52, R685). -/
def Obligations.StepRunsTheFrontCommand : Prop :=
  (∀ (s : State) (c : Instr) (rest : List Instr), step { s with pending := c :: rest } = exec c { s with pending := rest })
  ∧ ∀ s : State, s.pending = [] → ∃ t, step s = .next t ∧ t = { s with clk := { s.clk with mono := t.clk.mono, time := t.clk.time, remain := t.clk.remain } }
    ∧ t.clk.mono = s.clk.mono + 4 * 65536 ∧ (s.clk.loaded = false → t.clk.time = s.clk.time ∧ t.clk.remain = s.clk.remain)
    ∧ t.clk.remain.natAbs ≤ s.clk.remain.natAbs
    ∧ (s.clk.loaded = true → s.clk.remain = 0 → (t.clk.time : Int) = s.clk.time + 4 * 65536 * (1000000 + clampPpm s.clk.freq))
    ∧ (s.clk.loaded = true → s.clk.time + 4 * 65536 * 999950 ≤ t.clk.time ∧ t.clk.time ≤ s.clk.time + 4 * 65536 * 1000050)

open Sys2Proof.Claims in
/-- After reset the queue and memory are empty, every register but POWERUP holds its reset value, and nothing runs.
The state after reset: no command waits, nothing has been sent, and the memory stands in its canonical form; every
register reads the reset value of its row, but that DEV_BRINGUP shows a power-up in phase ROM; the counter is not
loaded and does not count, no frame ticks, every context is FREE, every ring DISABLED, every port without a packet,
every hall without a holder with slots 0 to 24 of each gallery in service and position p served by slot p, and every
control processor has its registers at 0 (values that the spec does not give: log entry 1). (R20, R30, R427, R681,
R685). -/
def Obligations.ResetState : Prop :=
  let s := State.reset
  Inv s ∧ s.pending = [] ∧ s.out = [] ∧ s.mem.cells = [] ∧ s.mem.pot = [] ∧ s.mem.ecc = []
  ∧ (∀ a, a ≠ Reg.DEV_BRINGUP → s.reg a = resetOf a) ∧ bit (s.reg Reg.DEV_BRINGUP) 27 = true ∧ s.phase = 0
  ∧ s.clk.loaded = false ∧ s.clk.time = 0 ∧ s.clk.disc = .unset ∧ s.fr.ticking = false ∧ s.flight = []
  ∧ (∀ c, s.ctx c = {} ∧ (s.ctx c).state = .free) ∧ (∀ r, s.ring r = {} ∧ (s.ring r).state = .disabled)
  ∧ (∀ g, (s.port g).waiting = [] ∧ (s.port g).replay = [])
  ∧ (∀ h, (s.hall h).holder = none ∧ (s.hall h).step = none
    ∧ ∀ j k, (s.hall h).slotState j k = (if k < 25 then 0 else 1) ∧ (s.hall h).slotOf j k = k)
  ∧ ∀ n r, (s.core n).cp.sreg r = 0 ∧ (s.core n).cp.areg r = 0 ∧ (s.core n).cp.pc = 0 ∧ (s.core n).cp.instret = 0

open Sys2Proof.Claims in
/-- Every step of every command keeps the canonical form of the memory, what has been sent, and the order of
acceptances; none is refused. For every state whose memory stands in its canonical form, and every command at the
front of its queue: the step completes (no command of the table is refused and none stops the machine), and in the
state that it answers the memory still stands in its canonical form, the queue is exactly the commands that waited
behind it, what had left the device is a prefix of what has left it now, and the numbers that order acceptances have
not gone back. (R20, R323, R482, R645, 17 Table 17.2). -/
def Obligations.EveryStepKeepsMemoryQueueAndWhatWasSent : Prop :=
  ∀ s : State, Inv s → ∃ t, step s = .next t ∧ Inv t ∧ t.pending = s.pending.tail ∧ s.out <+: t.out ∧ s.serial ≤ t.serial

open Sys2Proof.Claims in
/-- Marks, tables, galleries, the mover, the mesh, waits, ports, links, PTP, fault events and SMBus reads answer a
next state with their effect. For every state and operands that meet the conditions which the rules give for each, and
these alone, the command ANSWERS A NEXT STATE that holds its own effect: LOOP, ENDLOOP, BRANCH, FRAME_END, SYNC WAIT
and SYNC SIGNAL at the front of their queue; FRAME_END_REACHED when the main queue has done; TLOAD_COMPLETE and
TPATCH_COMPLETE; GALLERY_START and MAIN_QUEUE_START; the start of an iteration of COPY, GATHER, SCATTER, PUT and
PUT_ADD; TLOAD, TGO, TSWITCH, TPATCH, TWAIT, LANDWAIT, FENCE with their resumptions, CSRR, CSRW and an illegal word;
the commands of the ports, of their control slots, of bulk transfers and of PTP; FAULT_EVENT, MESH_DEADLOCK,
QUARANTINE_DROP and LATCH_CLEAR; each SMBus read while the target answers. What else each does, and what it leaves
alone, the other statements say. (R225, R248, R250, R252, R257, R258, R262, R524, R527, R543, R551, R659). -/
def Obligations.CommandsCompleteWithTheirOwnEffect : Prop :=
  (∀ (s : State) (core : Coord) (q : Queue) (st slot : Nat),
    let n := coreNo core
    let sq := (s.core n).seq
    let y := sq.queue q
    sq.front q = some (slot, st) →
    (stIsLoop st = true → ∃ t, exec (.loop core q) s = .next t
      ∧ t.core n = { s.core n with seq := (sq.setQueue q { y with pos := y.pos + 1, loops := ⟨y.pos + 1, stCount st, 0⟩ :: y.loops }).dispatch })
    ∧ (stIsEndloop st = true → ∀ f rest, y.loops = f :: rest → f.pass < f.count → ∃ t, exec (.endloop core q) s = .next t
      ∧ t.core n = { s.core n with seq := (sq.setQueue q { y with pos := f.body, loops := { f with pass := f.pass + 1 } :: rest }).dispatch })
    ∧ (stIsBranch st = true → ∀ i, y.sel = some i → (sq.slot i).state = .ready → (sq.slot i).patches = [] →
      ∃ t, exec (.branch core q) s = .next t
        ∧ t.core n = { s.core n with seq := (sq.setQueue q { y with sel := none, run := some i, pos := 0, loops := [] }).dispatch })
    ∧ (stIsFrameEnd st = true → q = .main → ∃ t, exec (.frameEnd core q) s = .next t
      ∧ (t.core n).seq.main.endDispatched = true ∧ (t.core n).seq.main.pos = y.pos + 1 ∧ (t.core n).seq.idle.stopped = true)
    ∧ (stIsWait st = true → stRelEn st = false → sq.waitHolds st = true → sq.outranked (syncRank q) st = false →
      ∃ t, exec (.syncWait core q) s = .next t ∧ Consumed s t n st)
    ∧ (stIsSignal st = true → sq.waitHolds st = true → sq.outranked (syncRank q) st = false → s.issueCheck n st = none →
      stDevice st = s.deviceId → ∃ t r, exec (.syncSignal core q) s = .next t ∧ t.flight = s.flight ++ [r] ∧ r.type = .signal
        ∧ r.dst.x.toNat = stX st ∧ r.dst.y.toNat = stY st ∧ r.rtc.toNat = stRtc st ∧ Consumed s t n st))
  ∧ (∀ (s : State) (core : Coord) (slot : BitVec 4),
    let n := coreNo core
    let q := (s.core n).seq
    let i := slot.toNat
    let x := q.slot i
    let d := Desc.ofBits x.src
    let count := d.extent 0 / 4
    let steps := (List.range count).map fun j => s.natAt (alcoveBase n + d.base + 16 * j) 16
    let get (r : Nat) : Option Desc :=
      if (mapGet {} x.regs r).valid then some (Desc.ofBits (mapGet {} x.regs r).bits) else none
    (q.main.endDispatched = true → q.main.run.isSome = true → q.signals = [] → q.ramp = .idle → q.main.armed = false →
      (∀ u, (q.unit u).cur = none ∧ (q.unit u).running = none ∧ (q.unit u).overlap = none ∧ (q.unit u).waiting = []) →
      ∃ t, exec (.frameEndReached core) s = .next t ∧ (t.core n).seq.main.run = none ∧ (t.core n).seq.reachedEnd = true)
    ∧ (x.state = .loading → d.space = 0 → NoErrors s → tableCheck n get count 0 0 steps = none →
      ∃ t, exec (.tloadComplete core slot) s = .next t
        ∧ (t.core n).seq.slot i = { state := .ready, steps := steps.map (BitVec.ofNat 128) })
    ∧ (∀ p rest old hi lo, x.patches = p :: rest → x.steps[p.step]? = some old → patchBits p.field old.toNat = some (hi, lo) →
      ∃ t, exec (.tpatchComplete core slot) s = .next t ∧ (t.core n).seq.slot i = { x with
        patches := rest, steps := x.steps.set p.step (BitVec.ofNat 128 (setBits old.toNat hi lo p.value.toNat)) })
    ∧ (∀ i off, (s.hall (coreHall n)).started.getLsbD (coreGallery n % 10) = true → q.main.armed = true → q.main.run = none →
      q.main.bind = some (i, off) → (q.slot i).state = .ready → ∃ t, exec (.mainQueueStart core) s = .next t
        ∧ t.core n = { s.core n with seq := (q.setQueue .main (q.main.enter i)).dispatch }))
  ∧ (∀ (s : State) (g : BitVec 8) (bound : Nat → Nat), g.toNat < 160 →
    let h := g.toNat / 10
    let j := g.toNat % 10
    s.fr.ticked = true → (s.hall h).stage = .done → s.inStep h = false → (s.hall h).started.getLsbD j = false →
    (s.hall h).holder.isSome = true →
    (∀ p, p < 25 → let q := (s.core (coreAt g.toNat p)).seq
      q.idle.armed = false ∧ q.main.armed = true ∧ q.main.run = none ∧ q.main.bind = some (bound p, 0)
      ∧ (q.slot (bound p)).state = .ready) →
    ∃ t, exec (.galleryStart g) s = .next t ∧ (t.hall h).started.getLsbD j = true
      ∧ ∀ p, p < 25 → let q := (s.core (coreAt g.toNat p)).seq
        (t.core (coreAt g.toNat p)).seq = (q.setQueue .main (q.main.enter (bound p))).dispatch)
  ∧ (∀ (s : State) (core : Coord) (q : Queue) (s0 : State) (r : Run), NoErrors s →
    let n := coreNo core
    let started (t : State) (u : UnitName) : Prop := ∃ x, ((t.core n).seq.unit u).of q = some x ∧ x.busy = true ∧ x.entry = r.entry
      ∧ Consumed s t n r.st
    (Begins s n .mover q 1 s0 r → CopySourceInAlcove n r → ∃ t, exec (.moverCopy core q) s = .next t ∧ started t .mover)
    ∧ (Begins s n .mover q 2 s0 r → IndicesGood s n r (r.desc 1) →
      RowsInAlcove n (r.desc 1) r ((List.range (stRank r.st - 1)).map (r.desc 1).opExt) ((r.desc 1).opExt (stRank r.st - 1)) →
      ∃ t, exec (.gather core q) s = .next t ∧ started t .mover)
    ∧ (Begins s n .mover q 3 s0 r → IndicesGood s n r (r.desc 0) →
      RowsInAlcove n (r.desc 1) r ((List.range (stRank r.st - 1)).map (r.desc 0).opExt) ((r.desc 2).extent 0) →
      ∃ t, exec (.scatter core q) s = .next t ∧ started t .mover)
    ∧ (Begins s n .mesh q 1 s0 r → stDevice r.st = s.deviceId →
      ∃ t p, exec (.meshPut core q) s = .next t ∧ started t .mesh ∧ t.flight = s.flight ++ [p] ∧ p.type = .put ∧ IsTile s n r p)
    ∧ (Begins s n .mesh q 2 s0 r → stDevice r.st = s.deviceId →
      ∃ t p, exec (.meshPutAdd core q) s = .next t ∧ started t .mesh ∧ t.flight = s.flight ++ [p] ∧ p.type = .putAdd ∧ IsTile s n r p))
  ∧ (∀ (s : State) (core : Coord) (slot : BitVec 4) (ds : BitVec 6) (q : Queue) (rs : RegNo) (av tc : BitVec 4) (field : BitVec 3)
      (word : W32), Ready s core →
    let n := coreNo core
    let c := s.core n
    let i := slot.toNat
    let x := c.seq.slot i
    let d := Desc.ofBits (c.cp.dreg ds.toNat).bits
    let v := (c.cp.sreg rs.toNat).toNat
    let retired (t : State) : Prop := (t.core n).cp = after c.cp
    (s.slotBusy n i = false → (c.cp.dreg ds.toNat).valid = true → tableShapeOk d = true → otherSteps c.seq i + d.extent 0 / 4 ≤ 4096 →
      ∃ t, exec (.tload core slot ds) s = .next t ∧ retired t
        ∧ (t.core n).seq.slot i = { state := .loading, src := (c.cp.dreg ds.toNat).bits, regs := c.cp.d })
    ∧ (x.state = .loading ∨ x.state = .ready → ∃ t, exec (.tgo core slot q) s = .next t ∧ retired t
        ∧ ((t.core n).seq.queue q).sel = some i)
    ∧ (∃ t, exec (.tswitch core slot q rs true) s = .next t ∧ retired t ∧ ((t.core n).seq.queue q).pendBind.getLast? = some (s.serial, none))
    ∧ (∀ step new, x.state = .ready → c.seq.runs i = false → x.patches = [] → x.steps[v]? = some step →
      s.patchStep n field.toNat step.toNat (c.cp.areg av.toNat).toNat = .ok new →
      ∃ t, exec (.tpatch core slot rs av field) s = .next t ∧ retired t
        ∧ ((t.core n).seq.slot i).patches = [⟨v, c.cp.areg av.toNat, field.toNat, c.cp.pc.toNat⟩])
    ∧ (v ≤ (c.seq.tokOf tc.toNat).toNat → ∃ t, exec (.twait core tc rs) s = .next t ∧ retired t)
    ∧ (∃ t, exec (.landwait core rs) s = .next t ∧ (t.core n).cp.block = .landwait rs.toNat none)
    ∧ (∃ t, exec (.fence core 0) s = .next t ∧ retired t)
    ∧ (∃ t, exec (.csrr core av 0x020) s = .next t ∧ (t.core n).cp.areg av.toNat = c.cp.srSeed)
    ∧ (∃ t, exec (.csrw core av 0x020) s = .next t ∧ (t.core n).cp.srSeed = c.cp.areg av.toNat)
    ∧ (HandlerOn s n → legalWord word.toNat = false → ∃ t, exec (.illegal core word) s = .next t ∧ (t.core n).cp.tcause = 1
      ∧ (t.core n).cp.tval = BitVec.ofNat 64 word.toNat ∧ (t.core n).cp.inHandler = true))
  ∧ (∀ (s : State) (core : Coord) (tc v r f : Nat) (mask : BitVec 3),
    let n := coreNo core
    let c := s.core n
    c.cp.pc ≠ 4095 →
    (c.cp.block = .twait tc v → v ≤ (c.seq.tokOf tc).toNat → ∃ t, exec (.twaitRetire core) s = .next t
      ∧ (t.core n).cp = { after c.cp with block := .none })
    ∧ (c.cp.block = .fence mask.toNat → FenceMet c mask → ∃ t, exec (.fenceResume core) s = .next t
      ∧ (t.core n).cp = { after c.cp with block := .none })
    ∧ (c.cp.block = .landwait r (some f) → ∃ t, exec (.landwaitResume core) s = .next t ∧ (t.core n).cp.block = .none
      ∧ SReg c.cp (t.core n).cp r (BitVec.ofNat 32 f)))
  ∧ (∀ (s : State) (port : PortId) (v : W32) (lane : BitVec 2) (lanes : BitVec 4) (id horiz vert : W16),
    let g := port.toNat
    let ctrl := Reg.GAR_PORT_CTRL g
    let status := Reg.GAR_PORT_STATUS g
    let active := s.portUp g = true ∧ bit (s.fld status 11 8) lane.toNat = true
    (s.ready = true →
      (bit (s.reg ctrl) 31 = false → ∃ t, exec (.portEnable port v) s = .next t ∧ bit (t.reg ctrl) 31 = true)
      ∧ (bit (s.reg ctrl) 31 = true → ∃ t, exec (.portDisable port v) s = .next t ∧ bit (t.reg ctrl) 31 = false ∧ t.portState g = 0)
      ∧ (bit (s.reg ctrl) 31 = true → bit v.toNat 31 = true → ∃ t, exec (.laneReset port v) s = .next t ∧ (t.port g).readmit = true)
      ∧ (bits v.toNat 15 0 ≠ 0xFFFF → (∀ p, p < 16 → s.portState p ≠ 2 ∧ s.portUp p = false) →
        ∃ t, exec (.deviceIdWrite v) s = .next t ∧ t.deviceId = bits v.toNat 15 0)
      ∧ (∃ t, exec (.routeWrite id v) s = .next t ∧ t.reg (Reg.GAR_ROUTE id.toNat) = 2 ^ 30 * bits v.toNat 31 30 + bits v.toNat 7 0)
      ∧ (bits v.toNat 31 30 = 0 → ∃ t, exec (.ptpRoleWrite port v) s = .next t ∧ t.ptpRole g = 0)
      ∧ (∃ t, exec (.marginScan port lanes) s = .next t ∧ (t.port g).scan = (s.port g).scan ||| lanes.toNat))
    ∧ (bit (s.port g).scan lane.toNat = true → ∃ t, exec (.marginScanDone port lane horiz vert) s = .next t
      ∧ t.reg (Reg.GAR_LANE_MARGIN g lane.toNat) = 2 ^ 63 + 65536 * horiz.toNat + vert.toNat)
    ∧ (∀ deg, s.portState g = 2 → (s.port g).ident = some (15, deg) → s.fld status 7 4 = 0 →
      ∃ t, exec (.trainingComplete port 15) s = .next t ∧ t.portState g = 3)
    ∧ (s.portState g = 2 → ∃ t, exec (.trainingTimeout port) s = .next t ∧ t.portState g = 1)
    ∧ (s.portState g = 1 → s.fld ctrl 3 0 ≤ (s.port g).attempts → ∃ t, exec (.trainingRetry port) s = .next t ∧ t.portState g = 5)
    ∧ (active → ∃ t, exec (.lossOfSignal port lane) s = .next t ∧ t.portState g = 1)
    ∧ (active → ∃ t, exec (.laneUeLimit port lane) s = .next t ∧ t.portState g = 1))
  ∧ (∀ (s : State) (port : PortId) (seq ack : W16) (lane : BitVec 2) (counts : List W16) (codeword corrected : W32) (id : W16)
      (peer lanes : BitVec 4) (degrade : Bool),
    let g := port.toNat
    let q := s.port g
    (s.portUp g = true →
      (q.rxWait = none → q.asked.1 ≠ seq.toNat → ∃ t, exec (.badFlit port seq 0) s = .next t ∧ (t.port g).rxWait = some seq.toNat)
      ∧ (∀ n, q.rxWait = some n → q.asked.1 ≠ n → ∃ t, exec (.replayReqRepeat port) s = .next t
        ∧ t.reg (Reg.GAR_PORT_REPLAYS g) = plus1 (s.reg (Reg.GAR_PORT_REPLAYS g)))
      ∧ (q.rxWait = some seq.toNat → ∃ t, exec (.replayStart port seq) s = .next t ∧ (t.port g).rxWait = none)
      ∧ (fullSeq q.acked seq.toNat < q.seqNext → q.askedBy.1 ≠ fullSeq q.acked seq.toNat → ∃ t, exec (.replayReq port seq) s = .next t
        ∧ s.out ++ [.control g (.replayStart seq)] <+: t.out)
      ∧ (q.waiting = [] → fullSeq q.acked ack.toNat ≤ q.seqNext → ∃ t, exec (.link port ack counts) s = .next t
        ∧ (t.port g).acked = fullSeq q.acked ack.toNat)
      ∧ (∃ t, exec (.align port lane codeword corrected) s = .next t ∧ mapGet 0 (t.port g).aligned lane.toNat = codeword.toNat))
    ∧ (s.portState g = 2 → id.toNat ≠ s.deviceId → ∃ t, exec (.ident port id peer lanes degrade) s = .next t
      ∧ (t.port g).ident = some (lanes.toNat, degrade)))
  ∧ (∀ (s s1 : State) (port : Option PortId) (p : Packet), ArrivesAtDevice s port p s1 → NoErrors s →
    let a := p.dest.toNat + p.offset.toNat
    let n := p.bytes.toNat
    let k := p.data.length
    (p.type = .bulkRead → n ≤ 0x100000 → Admits s 31 (s.fld Reg.GAR_BULK_CTRL 23 12) a n (·.rd) → ∃ t, exec (.bulkRead port p) s = .next t
      ∧ t.reg Reg.GAR_BULK_SERVED = min (s.reg Reg.GAR_BULK_SERVED + n) 0xFFFFFFFFFFFFFFFF)
    ∧ (p.type = .bulkData → s.loadFor p = none → Admits s 30 (s.fld Reg.GAR_BULK_CTRL 11 0) a k (·.wr) →
      ∃ t, exec (.bulkData port p) s = .next t ∧ BytesAre s t a p.data))
  ∧ (∀ (s : State) (port : PortId) (m : PtpMsg), m.sdo = 0 → m.domain.toNat = s.fld Reg.GAR_PTP_CFG 15 8 →
    let g := port.toNat
    s.portUp g = true →
    (s.ptpRole g = 1 → ∃ t, exec (.syncInterval port) s = .next t ∧ (t.port g).syncSeq = ((s.port g).syncSeq + 1) % 65536
      ∧ t.out.length = s.out.length + 2)
    ∧ (m.type = 0 → s.ptpRole g = 2 → ∃ t at_, exec (.sync port m) s = .next t ∧ (t.port g).syncRx = some (m.seq.toNat, at_))
    ∧ (m.type = 8 → s.ptpRole g = 2 → ∀ at_, (s.port g).syncRx = some (m.seq.toNat, at_) → ∃ t, exec (.followUp port m) s = .next t
      ∧ (t.port g).syncRx = none ∧ ((t.port g).path).isSome = true)
    ∧ (m.type = 1 → s.ptpRole g = 1 → ∃ t r, exec (.delayReq port m) s = .next t ∧ t.out = s.out ++ [.ptp g r] ∧ r.type = 9 ∧ r.seq = m.seq)
    ∧ (m.type = 9 → s.ptpRole g = 2 → ∀ at_ path, (s.port g).delayTx = some (m.seq.toNat, at_) → (s.port g).path = some path →
      ∃ t, exec (.delayResp port m) s = .next t ∧ (t.port g).delayTx = none)
    ∧ (s.ptpRole g = 2 → (∀ p, p < g → s.ptpRole p ≠ 2) → ∃ t, exec .ptpLost s = .next t
      ∧ t.fld (Reg.GAR_PORT_CODE g) 15 0 = Code.PTP_LOST))
  ∧ ∀ (s : State) (hall : HallId) (code : W16) (inst : Byte) (g : BitVec 8) (slot : BitVec 5) (scope : Option HallId) (n : BitVec 5)
      (r : BitVec 6),
    let h := hall.toNat
    let boot := s.fld Reg.SEC_STATUS 2 0
    let sends (i : Instr) (bs : List Byte) : Prop := exec i s = .next (s.emit (.smbus bs))
    (s.power.good = true → ∃ t, exec (.faultEvent 0x30 hall none code inst 0 0) s = .next t
      ∧ t.reg (Reg.FLT_SRC_COUNT 0x30 0) = plus1 (s.reg (Reg.FLT_SRC_COUNT 0x30 0)))
    ∧ (s.inStep h = false → ∃ t, exec (.meshDeadlock hall) s = .next t
      ∧ t.reg (Reg.FLT_SRC_COUNT 0x1F h) = plus1 (s.reg (Reg.FLT_SRC_COUNT 0x1F h)))
    ∧ (g.toNat < 160 → slot.toNat < 27 → (s.hall (g.toNat / 10)).slotState (g.toNat % 10) slot.toNat ≠ 0 →
      ∃ t, exec (.quarantineDrop g slot) s = .next t
        ∧ t.reg (Reg.HAL_QUARANTINE_DROPS (g.toNat / 10)) = plus1 (s.reg (Reg.HAL_QUARANTINE_DROPS (g.toNat / 10))))
    ∧ (s.ready = true → ∃ t, exec (.latchClear scope) s = .next t ∧ bits (t.reg (latchOf scope)) 63 62 = 0)
    ∧ (s.power.good = true → 1 ≤ boot → boot ≤ 3 →
      sends .status (leBytes 2 (boot + 8 * b2n s.errNLow + 16 * s.fld Reg.PWR_STATUS 16 16 + 32 * s.fld Reg.PWR_STATUS 2 0))
      ∧ sends .input (leBytes 4 (s.reg Reg.PWR_INPUT))
      ∧ (∃ t, exec .inputPeak s = .next t ∧ t.out = s.out ++ [.smbus (leBytes 2 s.power.smbPeak)] ∧ t.power.smbPeak = 0)
      ∧ sends .energy (leBytes 8 (s.reg Reg.PWR_ENERGY)) ∧ sends .faults (leBytes 4 (s.view Reg.FLT_STATUS))
      ∧ (n.toNat ≤ 29 → bit (s.reg (Reg.PWR_TEMP n.toNat)) 31 = true → sends (.tempN n) (leBytes 2 (s.reg (Reg.PWR_TEMP n.toNat))))
      ∧ (r.toNat ≤ 33 → sends (.railN r) (leBytes 8 (s.reg (Reg.PWR_RAIL r.toNat))))
      ∧ sends .serial (leBytes 8 (s.reg Reg.SEC_SERIAL))
      ∧ sends .part ("IET-4000-1T".toList.map fun c => BitVec.ofNat 8 c.toNat)
      ∧ sends .versions ((List.range 4).flatMap fun k => leBytes 4 (s.imageVersion s.bank k))
      ∧ (s.power.alert = true → ∃ t, exec .alertResponse s = .next t ∧ t.power.alert = false
        ∧ t.out = s.out ++ [.smbus [BitVec.ofNat 8 (2 * (0x58 + Config.smbAddr.toNat))]]))
end

