-- ==== Sys2Proof/Laws/Follows.lean ====
section
/-! SUPPORT. What every operation of the model keeps: the queue of commands, the canonical form of the memory, what has left the
device, and the order of the acceptance numbers and of the free values. -/
namespace Sys2Proof.Machine

/-- What no command undoes: the queue is as it was, the memory keeps its canonical form, what has left the device stays
sent, and the acceptance numbers and the draws of free values only grow. -/
structure Follows (s t : State) : Prop where
  pending : t.pending = s.pending
  cells : Memory.wf s.mem.cells = true → Memory.wf t.mem.cells = true
  out : s.out <+: t.out
  serial : s.serial ≤ t.serial
  free : s.free ≤ t.free

theorem Follows.refl (s : State) : Follows s s := ⟨rfl, id, List.prefix_refl _, Nat.le_refl _, Nat.le_refl _⟩

theorem Follows.trans {r s t : State} (h : Follows r s) (k : Follows s t) : Follows r t :=
  ⟨k.pending.trans h.pending, fun w => k.cells (h.cells w), h.out.trans k.out, Nat.le_trans h.serial k.serial, Nat.le_trans h.free k.free⟩

theorem Follows.ite {r a b : State} {c : Prop} [Decidable c] (ha : Follows r a) (hb : Follows r b) :
    Follows r (if c then a else b) := by split <;> assumption

/-- A change of other fields follows what was changed. -/
theorem Follows.upd {r s : State} {free serial : Nat} {regs latchedHigh heldLow clk fr halls cores flight}
    {ctxs ls rings mboxes pcie srcWin dies devStep dumps powerCycleReq powerCycleCopy dumpCopies bring ports sec power cables}
    (hs : s.serial ≤ serial) (hf : s.free ≤ free) (h : Follows r s) :
    Follows r ⟨s.pending, s.out, free, serial, regs, latchedHigh, heldLow, clk, fr, halls, cores, flight, s.mem, ctxs, ls, rings,
      mboxes, pcie, srcWin, dies, devStep, dumps, powerCycleReq, powerCycleCopy, dumpCopies, bring, ports, sec, power, cables⟩ :=
  h.trans ⟨rfl, id, List.prefix_refl _, hs, hf⟩

/-- A change of the memory beside its cells follows what was changed. -/
theorem Follows.updMem {r s : State} {free serial : Nat} {regs latchedHigh heldLow clk fr halls cores flight}
    {undef pot ecc ownCache far potQuery tg ctxs ls rings mboxes pcie srcWin dies devStep dumps powerCycleReq powerCycleCopy dumpCopies bring ports sec power cables}
    (hs : s.serial ≤ serial) (hf : s.free ≤ free) (h : Follows r s) :
    Follows r ⟨s.pending, s.out, free, serial, regs, latchedHigh, heldLow, clk, fr, halls, cores, flight, ⟨s.mem.cells, undef, pot, ecc, ownCache, far, potQuery, tg⟩, ctxs, ls, rings,
      mboxes, pcie, srcWin, dies, devStep, dumps, powerCycleReq, powerCycleCopy, dumpCopies, bring, ports, sec, power, cables⟩ :=
  h.trans ⟨rfl, id, List.prefix_refl _, hs, hf⟩

theorem Follows.next {r s : State} (h : Follows r s) :
    ∀ t, (.next s : Host.Outcome State Fault Refusal) = .next t → Follows r t := by
  intro t ht; cases ht; exact h

theorem Follows.fst {α : Type} {r t : State} {a : α} {p : State × α} (e : p = (t, a)) (h : Follows r p.1) : Follows r t := by
  subst e; exact h

theorem Follows.snd {α : Type} {r t : State} {a : α} {p : α × State} (e : p = (a, t)) (h : Follows r p.2) : Follows r t := by
  subst e; exact h

theorem Follows.mkFst {α : Type} {r s : State} {a : α} (h : Follows r s) : Follows r (s, a).1 := h

theorem Follows.mkSnd {α : Type} {r s : State} {a : α} (h : Follows r s) : Follows r (a, s).2 := h

theorem Follows.iteFst {α : Type} {r : State} {a b : State × α} {c : Prop} [Decidable c] (ha : Follows r a.1) (hb : Follows r b.1) :
    Follows r (if c then a else b).1 := by split <;> assumption

theorem Follows.iteSnd {α : Type} {r : State} {a b : α × State} {c : Prop} [Decidable c] (ha : Follows r a.2) (hb : Follows r b.2) :
    Follows r (if c then a else b).2 := by split <;> assumption

theorem Follows.foldl {α : Type} {f : State → α → State} (hf : ∀ s a, Follows s (f s a)) (l : List α) :
    ∀ {r s : State}, Follows r s → Follows r (l.foldl f s) := by
  induction l with
  | nil => exact id
  | cons a l ih => exact fun h => ih (h.trans (hf _ a))

theorem Follows.getD {r d : State} {o : Option State} (hd : Follows r d) (ho : ∀ t, o = some t → Follows r t) :
    Follows r (o.getD d) := by
  cases o with
  | none => exact hd
  | some t => exact ho t rfl

theorem Follows.foldlBy {α β : Type} (g : β → State) {f : β → α → β} (hf : ∀ b a, Follows (g b) (g (f b a))) (l : List α) :
    ∀ {r : State} {b : β}, Follows r (g b) → Follows r (g (l.foldl f b)) := by
  induction l with
  | nil => exact id
  | cons a l ih => exact fun h => ih (h.trans (hf _ a))

theorem Follows.foldlFst {α β : Type} {f : State × β → α → State × β} (hf : ∀ p a, Follows p.1 (f p a).1) (l : List α)
    {r : State} {p : State × β} (h : Follows r p.1) : Follows r (l.foldl f p).1 := Follows.foldlBy Prod.fst hf l h

theorem Follows.foldlSnd {α β : Type} {f : β × State → α → β × State} (hf : ∀ p a, Follows p.2 (f p a).2) (l : List α)
    {r : State} {p : β × State} (h : Follows r p.2) : Follows r (l.foldl f p).2 := Follows.foldlBy Prod.snd hf l h

end Sys2Proof.Machine
end

