-- ==== Sys2Proof/Laws/Reported.lean ====
section
/-! SUPPORT. What the report of an event can change: registers, windows, messages, contexts, halls and the live record, and
nothing else, unless its class is FATAL. -/
namespace Sys2Proof.Machine

/-- The two states differ at most in what the report of an event writes. -/
def Reported (s t : State) : Prop :=
  t = { s with
    regs := t.regs, srcWin := t.srcWin, out := t.out, pcie := t.pcie, ctxs := t.ctxs, halls := t.halls, sec := t.sec }

theorem Reported.refl (s : State) : Reported s s := rfl

theorem Reported.trans {r s t : State} (h : Reported r s) (k : Reported s t) : Reported r t := by
  unfold Reported at *; rw [k, h]

theorem Reported.of {r s t : State} (h : Reported r s)
    (k : t = { s with
      regs := t.regs, srcWin := t.srcWin, out := t.out, pcie := t.pcie, ctxs := t.ctxs, halls := t.halls, sec := t.sec }) :
    Reported r t := h.trans k

theorem Reported.cores {s t : State} (h : Reported s t) : t.cores = s.cores := by rw [h]
theorem Reported.core {s t : State} (h : Reported s t) (n : Nat) : t.core n = s.core n := by rw [h]; rfl
theorem Reported.mem {s t : State} (h : Reported s t) : t.mem = s.mem := by rw [h]
theorem Reported.pending {s t : State} (h : Reported s t) : t.pending = s.pending := by rw [h]

theorem Reported.foldl {α : Type} {r s : State} (l : List α) (f : State → α → State) (h : Reported r s)
    (hf : ∀ s a, Reported s (f s a)) : Reported r (l.foldl f s) := by
  induction l generalizing s with
  | nil => exact h
  | cons a l ih => exact ih (h.trans (hf s a))

theorem Reported.setReg {r s : State} (h : Reported r s) (a v : Nat) : Reported r (s.setReg a v) := h.of rfl
theorem Reported.setFld {r s : State} (h : Reported r s) (a hi lo v : Nat) : Reported r (s.setFld a hi lo v) := h.of rfl
theorem Reported.count {r s : State} (h : Reported r s) (a n : Nat) : Reported r (s.count a n) := h.of rfl
theorem Reported.onHall {r s : State} (h : Reported r s) (k : Nat) (f : Hall → Hall) : Reported r (s.onHall k f) := h.of rfl
theorem Reported.onCtx {r s : State} (h : Reported r s) (k : Nat) (f : Ctx → Ctx) : Reported r (s.onCtx k f) := h.of rfl

theorem Reported.ite {r a b : State} {p : Prop} [Decidable p] (ha : Reported r a) (hb : Reported r b) :
    Reported r (if p then a else b) := by
  split
  · exact ha
  · exact hb

theorem Reported.sendMsix {r s : State} (h : Reported r s) (fn v : Nat) : Reported r (s.sendMsix fn v) := by
  unfold State.sendMsix
  exact .ite h (.ite (.ite h (h.of rfl)) (h.of rfl))

theorem Reported.noteEvent {r s : State} (h : Reported r s) (e : Event) (cls : Nat) (esc : Bool) :
    Reported r (s.noteEvent e cls esc) := by
  unfold State.noteEvent
  extract_lets ctrl lr unset s1 s2 s3 s4 was s5 irq
  have h4 : Reported r s4 :=
    .ite h (.ite (h.setFld _ _ _ _) ((((h.setReg _ _).setReg _ _).setReg _ _).setReg _ _))
  clear_value s4
  have h5 : Reported r s5 := h4.setFld _ _ _ _
  clear_value s5
  exact .ite h5 (h5.sendMsix _ _)

theorem Reported.secCode {r s : State} (h : Reported r s) (c : Nat) : Reported r (s.secCode c) := h.setFld _ _ _ _

theorem Reported.startLiveWrite {r s : State} (h : Reported r s) : Reported r s.startLiveWrite := h.of rfl

theorem Reported.liveChange {r s : State} (h : Reported r s) : Reported r s.liveChange := by
  unfold State.liveChange
  exact .ite h (.ite (h.of rfl) h.startLiveWrite)

theorem Reported.markSlot {r s : State} (h : Reported r s) (a k : Nat) : Reported r (s.markSlot a k) := by
  unfold State.markSlot
  exact .ite h (h.onHall _ _).liveChange

theorem Reported.severeTagged {r s : State} (h : Reported r s) (e : Event) (c : Nat) : Reported r (s.severeTagged e c) := by
  unfold State.severeTagged
  exact .ite h (.ite (h.onCtx _ _) (h.foldl _ _ fun s a => (Reported.refl s).onHall _ _))

theorem Reported.severeUntagged {r s : State} (h : Reported r s) (e : Event) (now : Bool) (first : Nat) :
    Reported r (s.severeUntagged e now first) := by
  unfold State.severeUntagged
  extract_lets s1 c
  have h1 : Reported r s1 := .ite (h.markSlot _ _) h
  clear_value s1
  exact .ite h1 (h1.onHall _ _)

/-- The class of an event is FATAL only where its source's base class is (R552). -/
theorem State.classify_fatal (s : State) (e : Event) (h : srcBase e.src ≠ 4) : (s.classify e).2.1 ≠ 4 := by
  unfold State.classify
  extract_lets inst cfg t w w' base
  split
  · exact fun h3 => absurd h3 (by decide : (3 : Nat) ≠ 4)
  · exact h

/-- What the report of an event that is not FATAL can change. -/
theorem Reported.raiseAt {r s : State} (h : Reported r s) (e : Event) (now : Bool) (first : Nat) (he : srcBase e.src ≠ 4) :
    Reported r (s.raiseAt e now first) := by
  have hc := s.classify_fatal e he
  unfold State.raiseAt
  refine .ite h ?_
  generalize s.classify e = q at hc
  obtain ⟨w, cls, esc⟩ := q
  dsimp -zeta only at hc ⊢
  extract_lets inst s1 s2 s3
  have h2 : Reported r s2 := Reported.of (s := s1) (h.count _ _) rfl
  clear_value s2
  have h3 : Reported r s3 := .ite h2 (h2.noteEvent _ _ _)
  clear_value s3
  rw [if_neg hc]
  split
  · split
    · have h4 : Reported r (if srcHall e.src then s3.onHall e.hall (·.failReplay e.src e.code) else s3) :=
        .ite (h3.onHall _ _) h3
      split
      · exact h4.severeTagged _ _
      · exact h4
    · exact .ite (h3.severeUntagged _ _ _) h3
  · exact h3

theorem Reported.raise {r s : State} (h : Reported r s) (e : Event) (he : srcBase e.src ≠ 4) : Reported r (s.raise e) :=
  h.raiseAt _ _ _ he

end Sys2Proof.Machine
end

