-- ==== Sys2Proof/Tests/Slice0.lean ====
section
/-! SUPPORT. Tests of the model: ill-formed commands that WellFormed refuses, results of the manual's tables, and for every
statement with hypotheses a state and operands that meet them. -/
open Sys2Proof Sys2Proof.Machine Sys2Proof.Claims
namespace Sys2Proof.Tests
set_option Elab.async false

/-! ### Well-formed commands: each check refuses something -/

theorem test_wf_core : (Instr.halt ⟨79, 49⟩).wf = true ∧ (Instr.halt ⟨80, 0⟩).wf = false ∧ (Instr.halt ⟨0, 50⟩).wf = false := by decide
theorem test_wf_function : (Instr.rcRead 16 0 0).wf = true ∧ (Instr.rcRead 17 0 0).wf = false := by decide
theorem test_wf_virtual_function : (Instr.vfFlr 1).wf = true ∧ (Instr.vfFlr 0).wf = false ∧ (Instr.vfFlr 17).wf = false := by decide
theorem test_wf_gallery : (Instr.galleryStart 159).wf = true ∧ (Instr.galleryStart 160).wf = false := by decide
theorem test_wf_slot : (Instr.quarantineDrop 0 26).wf = true ∧ (Instr.quarantineDrop 0 27).wf = false := by decide
theorem test_wf_rail : (Instr.railFault 33).wf = true ∧ (Instr.railFault 34).wf = false := by decide
theorem test_wf_sensor : (Instr.tempN 29).wf = true ∧ (Instr.tempN 30).wf = false := by decide
theorem test_wf_die : (Instr.rstReqDie 3).wf = true ∧ (Instr.rstReqDie 4).wf = false := by decide
theorem test_wf_packet_type : (Instr.msg none { type := .msg, ddev := 0, dst := ⟨0, 0⟩, sdev := 0, src := ⟨0, 0⟩ }).wf = true
    ∧ (Instr.msg none { type := .put, ddev := 0, dst := ⟨0, 0⟩, sdev := 0, src := ⟨0, 0⟩ }).wf = false
    ∧ (Instr.msg none { type := .msg, ddev := 0, dst := ⟨80, 0⟩, sdev := 0, src := ⟨0, 0⟩ }).wf = false := by decide
theorem test_wf_ptp : (Instr.sync 0 { type := 0 }).wf = true ∧ (Instr.sync 0 { type := 8 }).wf = false
    ∧ (Instr.sync 0 { type := 0, ns := 1000000000 }).wf = false := by decide
theorem test_wf_fetch : (Instr.commandFetch 0 .failed).wf = true ∧ (Instr.commandFetch 0 (.data [])).wf = false := by decide
theorem test_wf_bar4 : (Instr.bar4Read 0 0 4096).wf = true ∧ (Instr.bar4Read 0 0 4097).wf = false := by decide
theorem test_wf_upsets : (Instr.patrolScrub 64 64 [(64, true)] false).wf = true
    ∧ (Instr.patrolScrub 64 64 [(128, true)] false).wf = false := by decide
theorem test_wf_flit : (Instr.badFlit 0 0 1).wf = true ∧ (Instr.badFlit 0 0 0).wf = false := by decide
theorem test_wf_cable : (Instr.cblPrsntNLow 0 2).wf = true ∧ (Instr.cblPrsntNLow 0 3).wf = false := by decide
theorem test_wf_telemetry : (Instr.telemetryUpdate ⟨0, 0, 0, List.replicate 30 none, List.replicate 34 (0, 0)⟩).wf = true
    ∧ (Instr.telemetryUpdate ⟨0, 0, 0, [], []⟩).wf = false := by decide
theorem test_wf_reading : (Instr.pathDelaySample [⟨0, 0, 0, 0⟩]).wf = true ∧ (Instr.pathDelaySample [⟨160, 0, 0, 0⟩]).wf = false := by decide
theorem test_wf_failed_slots : (Instr.resetStepEnd .device [(0, 26)]).wf = true
    ∧ (Instr.resetStepEnd .device [(160, 0)]).wf = false := by decide
theorem test_wf_phase : (Instr.bringupPhaseEnd .images).wf = true ∧ (Instr.bringupPhaseEnd (.slots [(159, 26)])).wf = true
    ∧ (Instr.bringupPhaseEnd (.slots [(160, 0)])).wf = false ∧ (Instr.bringupPhaseEnd (.slots [(0, 27)])).wf = false
    ∧ (Instr.bringupPhaseEnd (.margin [⟨160, 0, 0, 0⟩])).wf = false ∧ (Instr.bringupPhaseEnd (.kat [⟨80, 0⟩])).wf = false := by decide
theorem test_wf_fault_event : (Instr.faultEvent 0 0 none 0 0 79 49).wf = true ∧ (Instr.faultEvent 0 0 none 0 0 0 50).wf = false := by decide

/-- A device that has reached READY. -/
def up : State := { State.reset with regs := [(8, 0x70000000)] }
/-- The core at (0, 0). -/
def c00 : Coord := ⟨0, 0⟩
/-- A READY device whose core 0 runs a kernel, with its control processor changed. -/
def running (f : Cp → Cp) : State := up.onCp 0 fun c => f { c with stopped := false }
/-- Something of the next state. -/
def then_ {α : Type} (o : Host.Outcome State Fault Refusal) (f : State → α) : Option α :=
  match o with | .next t => some (f t) | _ => none
/-- A scalar register of core 0 after a command. -/
def sAfter (i : Instr) (s : State) (r : Nat) : Option W32 := then_ (exec i s) fun t => (t.core 0).cp.sreg r

/-! ### Control processors -/

theorem witness_Ready : Ready (running id) c00 := by unfold Ready; decide
theorem witness_HandlerOn : Ready (running fun c => { c with tvec := 0x1010 }) c00 ∧ HandlerOn (running fun c => { c with tvec := 0x1010 }) 0 := by
  unfold Ready HandlerOn; decide
theorem witness_division : let s := running fun c => { c with s := [(1, 0x80000000), (2, 0xFFFFFFFF)] }
    Ready s c00 ∧ (s.core 0).cp.sreg 1 = 0x80000000 ∧ (s.core 0).cp.sreg 2 = 0xFFFFFFFF ∧ (s.core 0).cp.sreg 3 = 0 := by
  unfold Ready; decide
-- R215
theorem test_div_by_zero : sAfter (.div c00 3 1 2) (running fun c => { c with s := [(1, 7)] }) 3 = some 0xFFFFFFFF := by decide
theorem test_rem_overflow : sAfter (.rem c00 3 1 2) (running fun c => { c with s := [(1, 0x80000000), (2, 0xFFFFFFFF)] }) 3 = some 0 := by decide
theorem test_sra : sAfter (.sra c00 3 1 2) (running fun c => { c with s := [(1, 0x80000000), (2, 33)] }) 3 = some 0xC0000000 := by decide

/-- A core that runs with pc 10 and its handler, at index 16, enabled. -/
def handled (f : Cp → Cp) : State := running fun c => f { c with pc := 10, tvec := 0x1010 }

theorem witness_reserved_conditions : Ready (handled id) c00 ∧ HandlerOn (handled id) 0 ∧ 6 ≤ (6 : BitVec 3).toNat ∧ 6 ≤ (7 : BitVec 3).toNat := by
  unfold Ready HandlerOn; decide
theorem witness_register_numbers : (1 : Nat) < 8 ∧ (7 : Nat) < 8 ∧ (31 : Nat) ≠ 0 ∧ (7 : Nat) ≠ 0 := by decide
/-- Branches and jumps to 0, to 4,095, to 4,096 and below 0. -/
theorem witness_branch_targets :
    let s := handled fun c => { c with s := [(1, 4095), (2, 4096)] }
    let c := (s.core 0).cp
    Ready s c00 ∧ HandlerOn s 0 ∧ c.preg 0 ≠ false ∧ c.preg 0 = true
    ∧ (c.pc.toNat : Int) + (4085 : BitVec 22).toInt = 4095 ∧ (c.pc.toNat : Int) + (4086 : BitVec 22).toInt = 4096
    ∧ (c.pc.toNat : Int) + (-10 : BitVec 22).toInt = 0 ∧ (c.pc.toNat : Int) + (-11 : BitVec 22).toInt < 0
    ∧ (c.pc.toNat : Int) + (4085 : BitVec 21).toInt = 4095 ∧ (c.pc.toNat : Int) + (4086 : BitVec 21).toInt = 4096
    ∧ (c.pc.toNat : Int) + (-10 : BitVec 21).toInt = 0 ∧ (c.pc.toNat : Int) + (-11 : BitVec 21).toInt < 0
    ∧ (c.sreg 1).toNat ≤ 4095 ∧ 4095 < (c.sreg 2).toNat := by unfold Ready HandlerOn; decide
theorem test_jal_links : sAfter (.jal c00 5 (-10)) (handled id) 5 = some 11
    ∧ then_ (exec (.jal c00 5 (-10)) (handled id)) (fun t => (t.core 0).cp.pc) = some 0 := by decide
theorem test_branch_beyond_traps : then_ (exec (.br c00 0 false 4086) (handled id))
    (fun t => ((t.core 0).cp.tcause, (t.core 0).cp.tval, (t.core 0).cp.tepc, (t.core 0).cp.pc)) = some (2, 4096, 10, 16) := by decide
theorem test_compare_signed : then_ (exec (.cmp c00 1 1 2 2) (handled fun c => { c with s := [(1, 0xFFFFFFFF), (2, 1)] }))
    (fun t => (t.core 0).cp.preg 1) = some true := by decide
theorem test_lui : sAfter (.lui c00 1 0x8000) (handled id) 1 = some 0x80000000 := by decide
theorem test_aaddi_sign : then_ (exec (.aaddi c00 1 1 0xFFFF) (handled fun c => { c with a := [(1, 0)] }))
    (fun t => (t.core 0).cp.areg 1) = some 0xFFFFFFFFFFFFFFFF := by decide

/-- The last byte, half, word and double word of the alcove, the first addresses beyond, and misaligned ones. -/
theorem witness_alcove_bounds :
    let s := handled fun c => { c with a := [(1, 196607), (2, 196606), (3, 196604), (4, 196600), (5, 196608), (6, 1), (7, 196544)] }
    Ready s c00 ∧ HandlerOn s 0 ∧ s.cpReady c00 = true
    ∧ ea s 0 1 0 + 1 ≤ 196608 ∧ (ea s 0 2 0 + 2 ≤ 196608 ∧ ea s 0 2 0 % 2 = 0) ∧ (ea s 0 3 0 + 4 ≤ 196608 ∧ ea s 0 3 0 % 4 = 0)
    ∧ (ea s 0 4 0 + 8 ≤ 196608 ∧ ea s 0 4 0 % 8 = 0) ∧ (ea s 0 7 0 + 64 ≤ 196608 ∧ ea s 0 7 0 % 64 = 0)
    ∧ 196608 < ea s 0 5 0 + 1 ∧ 196608 < ea s 0 1 0 + 2 ∧ 196608 < ea s 0 1 0 + 64
    ∧ (ea s 0 6 0 + 64 ≤ 196608 ∧ ea s 0 6 0 % 2 ≠ 0 ∧ ea s 0 6 0 % 64 ≠ 0)
    ∧ Clean s (alcoveKey 0 (ea s 0 4 0)) 8 := by unfold Ready HandlerOn ea Clean; decide
theorem witness_unclean : Clean { up with mem := { up.mem with ecc := [⟨alcoveBase 0, true, false, []⟩] } } (alcoveBase 0 + 8) 8 := by
  unfold Clean; decide
-- R11: little-endian
theorem test_store_load : then_ (exec (.sth c00 1 1 0) (handled fun c => { c with s := [(1, 0x12345678)], a := [(1, 256)] }))
    (fun t => (t.byte (alcoveBase 0 + 256), t.byte (alcoveBase 0 + 257), t.byte (alcoveBase 0 + 258))) = some (0x78, 0x56, 0) := by decide
theorem test_load_sign : (let s := handled fun c => { c with a := [(1, 256)] }
    sAfter (.ldb c00 1 1 0) (s.writeBytes (alcoveBase 0 + 256) [0x80]) 1) = some 0xFFFFFF80 := by decide
theorem test_misaligned_word : then_ (exec (.ldw c00 1 1 2) (handled id)) (fun t => ((t.core 0).cp.tcause, (t.core 0).cp.tval)) = some (4, 2) := by decide

theorem witness_trap_unhandled : ¬ HandlerOn (running id) 0 ∧ (running id).inStep 0 = false ∧ (running id).cpReady c00 = true
    ∧ coreNo c00 = 0 ∧ coreHall 0 = 0 ∧ TrapCause.illegal ≠ .descCreate ∧ TrapCause.illegal ≠ .msgDest := by unfold HandlerOn; decide
theorem witness_trap_halted : let s := running fun c => { c with halted := true }
    ¬ HandlerOn s 0 ∧ (s.core 0).cp.halted = true := by unfold HandlerOn; decide
theorem test_trap_returns_behind : then_ (exec (.trap c00 77) (handled id))
    (fun t => ((t.core 0).cp.tcause, (t.core 0).cp.tval, (t.core 0).cp.tepc, (t.core 0).cp.inHandler)) = some (11, 77, 11, true) := by decide
theorem witness_tret : let s := handled fun c => { c with inHandler := true }
    s.cpReady c00 = true ∧ (s.core 0).cp.inHandler = true := by decide
theorem witness_tret_outside : (handled id).cpReady c00 = true ∧ HandlerOn (handled id) 0 ∧ legalWord 0xFFFFFFFF = false := by
  unfold HandlerOn; decide
theorem test_tret : then_ (exec (.tret c00) (handled fun c => { c with inHandler := true, tepc := 99 }))
    (fun t => ((t.core 0).cp.pc, (t.core 0).cp.inHandler)) = some (99, false) := by decide

/-- The image of a readable and writable dense tensor: its format, its base in the alcove and its extents. -/
def img (fmt base : Nat) (exts : List Nat) : Nat :=
  3 * 2 ^ 60 + fmt * 2 ^ 55 + exts.length * 2 ^ 52 + base
  + ((exts.zip (List.range 6)).foldl (fun (t : Nat × Nat) e => (t.1 + 2 ^ (64 * (e.2 + 1)) * (2 ^ 40 * (e.1 - 1) + t.2), t.2 * e.1)) (0, 1)).1

def withImage (v : Nat) : State := (handled fun c => { c with a := [(1, 256)] }).writeNat (alcoveBase 0 + 256) 64 v
theorem witness_dcreate :
    let good := withImage (img 0 0 [4])
    let bad := withImage (img 31 0 [4])
    Ready good c00 ∧ ea good 0 1 0 + 64 ≤ 196608 ∧ ea good 0 1 0 % 64 = 0 ∧ Clean good (alcoveKey 0 (ea good 0 1 0)) 64
    ∧ good.validateDesc 0 (BitVec.ofNat 512 (good.natAt (alcoveKey 0 (ea good 0 1 0)) 64)) = none
    ∧ Ready bad c00 ∧ HandlerOn bad 0 ∧ Clean bad (alcoveKey 0 (ea bad 0 1 0)) 64
    ∧ bad.validateDesc 0 (BitVec.ofNat 512 (bad.natAt (alcoveKey 0 (ea bad 0 1 0)) 64)) ≠ none := by
  unfold Ready HandlerOn ea Clean; decide +kernel
theorem witness_dcopy : let s := handled fun c => { c with d := [(1, ⟨1, true⟩)] }
    Ready s c00 ∧ HandlerOn s 0 ∧ ((s.core 0).cp.dreg 1).valid = true ∧ ((s.core 0).cp.dreg 2).valid = false := by
  unfold Ready HandlerOn; decide
theorem witness_cannot_issue : up.cpReady c00 = false := by decide

/-! ### Step tables, waits and control registers -/

/-- A VECTOR FILL of 1.0 through d1 with rank 1, repeated once, and the marks FRAME_END, BRANCH, LOOP and ENDLOOP. -/
def stFill : Nat := 2 * 2 ^ 124 + 9 * 2 ^ 116 + 1 * 2 ^ 74 + 1 * 2 ^ 53 + 0x3F80 * 2 ^ 33
def stMark (op count : Nat) : Nat := 6 * 2 ^ 124 + op * 2 ^ 116 + count * 2 ^ 64
/-- A SYNC WAIT for one token of counter 3 that consumes it and releases counter 4. -/
def stWait : Nat := 5 * 2 ^ 124 + 1 * 2 ^ 116 + 2 ^ 103 + 2 ^ 96 + 2 ^ 95 + 4 * 2 ^ 90
/-- A SYNC SIGNAL to core (1, 0) of the device for counter 5. -/
def stSig : Nat := 5 * 2 ^ 124 + up.deviceId * 2 ^ 52 + 2 * 2 ^ 116 + 1 * 2 ^ 45 + 5 * 2 ^ 35

/-- A core with its handler enabled, with something in its sequencer. -/
def withSeq (f : Cp → Cp) (g : Seq → Seq) : State := (handled f).onSeq 0 g

theorem witness_tload :
    let s := withSeq (fun c => { c with d := [(1, ⟨BitVec.ofNat 512 (img 5 0 [16384]), true⟩), (2, ⟨BitVec.ofNat 512 (img 0 0 [4]), true⟩)] }) id
    Ready s c00 ∧ HandlerOn s 0 ∧ s.slotBusy 0 1 = false ∧ ((s.core 0).cp.dreg 1).valid = true ∧ ((s.core 0).cp.dreg 3).valid = false
    ∧ tableShapeOk (Desc.ofBits ((s.core 0).cp.dreg 1).bits) = true
    ∧ otherSteps (s.core 0).seq 1 + (Desc.ofBits ((s.core 0).cp.dreg 1).bits).extent 0 / 4 = 4096
    ∧ tableShapeOk (Desc.ofBits ((s.core 0).cp.dreg 2).bits) = false := by unfold Ready HandlerOn otherSteps; decide +kernel
theorem witness_tload_too_large :
    let s := withSeq (fun c => { c with d := [(1, ⟨BitVec.ofNat 512 (img 5 0 [16384]), true⟩)] })
      fun q => { q with slots := [(2, { state := .ready, steps := [0] })] }
    s.slotBusy 0 1 = false ∧ 4096 < otherSteps (s.core 0).seq 1 + (Desc.ofBits ((s.core 0).cp.dreg 1).bits).extent 0 / 4 := by
  unfold otherSteps; decide +kernel
/-- No queue of a core runs a slot that is being loaded. -/
theorem witness_tload_idle : ∀ k, (((withSeq id id).core 0).seq.queue k).run ≠ some 1 := by
  intro k; cases k <;> decide
theorem witness_table_state :
    let s := withSeq (fun c => { c with s := [(1, 0xFFFFFFFF)] })
      fun q => { q with slots := [(1, { state := .loading }), (2, { state := .failed }), (3, { state := .ready })] }
    Ready s c00 ∧ HandlerOn s 0 ∧ ((s.core 0).seq.slot 1).state = .loading ∧ ((s.core 0).seq.slot 2).state = .failed
    ∧ ((s.core 0).seq.slot 3).state = .ready ∧ s.slotBusy 0 1 = true ∧ ((s.core 0).cp.sreg 0).toNat < s.reg Reg.FTK_BUDGET
    ∧ s.reg Reg.FTK_BUDGET ≤ ((s.core 0).cp.sreg 1).toNat ∧ ((s.core 0).cp.sreg 1).toNat ≠ 0 := by unfold Ready HandlerOn; decide +kernel
theorem ok_of (x : Except Nat Nat) (v : Nat) (h : (match x with | .ok y => y == v | .error _ => false) = true) : x = .ok v := by
  cases x <;> simp_all
theorem error_of (x : Except Nat Nat) (v : Nat) (h : (match x with | .error y => y == v | .ok _ => false) = true) : x = .error v := by
  cases x <;> simp_all
theorem witness_tpatch :
    let s := withSeq (fun c => { c with s := [(1, 1), (2, 2)], a := [(1, 5)] })
      fun q => { q with slots := [(1, { state := .ready, steps := [0, BitVec.ofNat 128 stFill] })] }
    Ready s c00 ∧ HandlerOn s 0 ∧ ((s.core 0).seq.slot 1).state = .ready ∧ (s.core 0).seq.runs 1 = false
    ∧ ((s.core 0).seq.slot 1).patches = [] ∧ ((s.core 0).seq.slot 1).steps[((s.core 0).cp.sreg 1).toNat]? = some (BitVec.ofNat 128 stFill)
    ∧ ((s.core 0).seq.slot 1).steps.length ≤ ((s.core 0).cp.sreg 2).toNat
    ∧ s.patchStep 0 0 (BitVec.ofNat 128 stFill).toNat ((s.core 0).cp.areg 1).toNat = .ok (stFill + 5 * 2 ^ 80)
    ∧ s.patchStep 0 4 (BitVec.ofNat 128 stFill).toNat ((s.core 0).cp.areg 1).toNat = .error Code.STEP_FIELD := by
  unfold Ready HandlerOn
  exact ⟨by decide +kernel, by decide +kernel, by decide +kernel, by decide +kernel, by decide +kernel, by decide +kernel,
    by decide +kernel, ok_of _ _ (by decide +kernel), error_of _ _ (by decide +kernel)⟩
theorem witness_waits :
    let s := withSeq (fun c => { c with s := [(1, 2), (2, 3)], sendBuf := [⟨0, 0, 0⟩] }) fun q => { q with tok := [(1, 2)] }
    Ready s c00 ∧ ((s.core 0).cp.sreg 1).toNat ≤ ((s.core 0).seq.tokOf 1).toNat ∧ ((s.core 0).seq.tokOf 1).toNat < ((s.core 0).cp.sreg 2).toNat
    ∧ FenceMet (s.core 0) 5 ∧ ¬ FenceMet (s.core 0) 2 := by unfold Ready FenceMet; decide
theorem witness_blocked :
    let t (v : Nat) := withSeq (fun c => { c with block := .twait 1 v }) fun q => { q with tok := [(1, 2)] }
    let f := withSeq (fun c => { c with block := .fence (2 : BitVec 3).toNat }) id
    let f' := withSeq (fun c => { c with block := .fence (2 : BitVec 3).toNat, sendBuf := [⟨0, 0, 0⟩] }) id
    let l (a : Option Nat) := withSeq (fun c => { c with block := .landwait 1 a }) id
    (((t 2).core 0).cp.block = .twait 1 2 ∧ 2 ≤ (((t 2).core 0).seq.tokOf 1).toNat ∧ ((t 2).core 0).cp.pc ≠ 4095)
    ∧ (((t 3).core 0).cp.block = .twait 1 3 ∧ (((t 3).core 0).seq.tokOf 1).toNat < 3)
    ∧ ((f.core 0).cp.block = .fence (2 : BitVec 3).toNat ∧ FenceMet (f.core 0) 2) ∧ ((f'.core 0).cp.block = .fence (2 : BitVec 3).toNat ∧ ¬ FenceMet (f'.core 0) 2)
    ∧ ((l none).core 0).cp.block = .landwait 1 none ∧ ((l (some 9)).core 0).cp.block = .landwait 1 (some 9) := by unfold FenceMet; decide
theorem witness_control_registers : Ready (handled id) c00 ∧ HandlerOn (handled id) 0 ∧ (0x021 : BitVec 12) ≠ 0x020 ∧ (0x021 : BitVec 12) ≠ 0x030
    ∧ (0x072 : BitVec 12) ∉ [0x000, 0x001, 0x002, 0x010, 0x011, 0x012, 0x013, 0x020, 0x021, 0x022, 0x030, 0x031, 0x032, 0x033, 0x034,
      0x050, 0x051, 0x052, 0x060, 0x070, 0x071] ∧ ¬ (0x040 ≤ (0x050 : BitVec 12).toNat ∧ (0x050 : BitVec 12).toNat < 0x050) := by
  unfold Ready HandlerOn; decide
theorem test_csr_token : then_ (exec (.csrr c00 1 0x04F) (withSeq id fun q => { q with tok := [(15, 7)] }))
    (fun t => (t.core 0).cp.areg 1) = some 7 := by decide
theorem test_csrw_read_only : then_ (exec (.csrw c00 1 0x071) (handled id)) (fun t => ((t.core 0).cp.tcause, (t.core 0).cp.tval)) = some (5, 0x071) := by
  decide

/-! ### SEND, RECV and the marks -/

/-- A device with one context, 1, that holds hall 0, and what a core sends from. -/
def held (f : Cp → Cp) (g : Seq → Seq) : State :=
  { withSeq f g with halls := [(0, { holder := some 1 })], ctxs := [(1, { state := .running, job := 3, epoch := 7, named := 1 })] }
/-- The destination word of core (1, 0) of the device. -/
def w10 : W32 := BitVec.ofNat 32 (2 ^ 16 * up.deviceId + 64)

theorem witness_send :
    let s (k : Nat) := held (fun c => { c with s := [(1, w10)], cache := [⟨w10.toNat, k⟩] }) id
    (Ready (s 1) c00 ∧ ¬ BadDest (s 1) 0 w10 ∧ destDevice w10 = (s 1).deviceId ∧ 0 < ((s 1).core 0).cp.creditsFor w10.toNat
      ∧ ((s 1).core 0).cp.sendBuf.length < 8 ∧ ((s 1).core 0).cp.sreg 1 = w10)
    ∧ (((s 0).core 0).cp.creditsFor w10.toNat = 0 ∧ ((s 0).core 0).cp.creditReq = none ∧ ((s 0).core 0).cp.retryDue = false
      ∧ ¬ BadDest (s 0) 0 w10) := by
  unfold Ready BadDest
  refine ⟨⟨by decide, ?_, by decide, by decide, by decide, by decide⟩, by decide, by decide, by decide, ?_⟩
  all_goals
    rintro (h | h | ⟨-, h⟩)
    · exact absurd h (by decide)
    · exact absurd h (by decide)
    · exact h 1 (by decide) (by decide)
theorem witness_bad_destinations : BadDest (held id id) 0 (BitVec.ofNat 32 (2 ^ 16 * up.deviceId + 64 * 80))
    ∧ BadDest (held id id) 0 (BitVec.ofNat 32 (2 ^ 16 * up.deviceId + 50))
    ∧ BadDest (held id id) 0 (BitVec.ofNat 32 (2 ^ 16 * up.deviceId + 64 * 10)) ∧ HandlerOn (held id id) 0 := by
  unfold BadDest HandlerOn
  refine ⟨.inl (by decide), .inr (.inl (by decide)), .inr (.inr ⟨by decide, fun c h => ?_⟩), by decide⟩
  have h1 : (held id id).holderOf 0 = some 1 := by decide
  rw [h1] at h; cases h; decide
theorem witness_send_resume :
    let s (full : Bool) := held (fun c => { c with block := .send w10.toNat 9 false, cache := [⟨w10.toNat, 1⟩], sendBuf := if full then List.replicate 8 ⟨0, 0, 0⟩ else [] }) id
    ∀ full, ((s full).core 0).cp.block = .send w10.toNat 9 false ∧ ((s full).core 0).cp.pc ≠ 4095 ∧ (s full).inStep (coreHall 0) = false
      ∧ destDevice w10 = (s full).deviceId ∧ 0 < ((s full).core 0).cp.creditsFor w10.toNat
      ∧ (if full then 8 ≤ ((s full).core 0).cp.sendBuf.length else ((s full).core 0).cp.sendBuf.length < 8) := by decide
theorem witness_recv :
    let s := handled fun c => { c with rx := [(2, { entries := [(5, 64)] })] }
    let b (q : Nat) := handled fun c => { c with block := .recv 1 1 q, rx := [(2, { entries := [(5, 64)] })] }
    Ready s c00 ∧ ((s.core 0).cp.rxq 2).entries = [(5, 64)] ∧ ((s.core 0).cp.rxq 7).entries = []
    ∧ ((b 2).core 0).cp.block = .recv 1 1 2 ∧ ((b 7).core 0).cp.block = .recv 1 1 7 ∧ (((b 2).core 0).cp.rxq 2).entries = [(5, 64)]
    ∧ (((b 7).core 0).cp.rxq 7).entries = [] ∧ ((b 7).core 0).cp.pc ≠ 4095 := by unfold Ready; decide
theorem test_recv_names_queue : sAfter (.recv c00 1 1 2) (handled fun c => { c with rx := [(2, { entries := [(5, 64)] })] }) 1 = some 0x4040 := by
  decide

/-- A core whose main queue stands at a step of slot 0. -/
def atStep (st : Nat) (g : Seq → Seq) : State :=
  withSeq id fun q => g { q with slots := [(0, { state := .ready, steps := [BitVec.ofNat 128 st] }), (1, { state := .ready })], main := { run := some 0 } }
theorem witness_marks :
    (AtFront (atStep (stMark 3 4) id) 0 .main (stMark 3 4) ∧ stIsLoop (stMark 3 4) = true)
    ∧ (let s := atStep (stMark 4 0) fun q => { q with main := { q.main with loops := [⟨1, 2, 0⟩] } }
       AtFront s 0 .main (stMark 4 0) ∧ stIsEndloop (stMark 4 0) = true ∧ (s.core 0).seq.main.loops = [⟨1, 2, 0⟩])
    ∧ (let s (x : Option Nat) := atStep (stMark 2 0) fun q => { q with main := { q.main with sel := x } }
       AtFront (s (some 1)) 0 .main (stMark 2 0) ∧ AtFront (s none) 0 .main (stMark 2 0) ∧ stIsBranch (stMark 2 0) = true
       ∧ ((s (some 1)).core 0).seq.main.sel = some 1 ∧ (((s (some 1)).core 0).seq.slot 1).state = .ready
       ∧ (((s (some 1)).core 0).seq.slot 1).patches = [] ∧ ((s none).core 0).seq.main.sel = none)
    ∧ (AtFront (atStep (stMark 1 0) id) 0 .main (stMark 1 0) ∧ stIsFrameEnd (stMark 1 0) = true)
    ∧ (let s (n : W32) := atStep stWait fun q => { q with tok := [(3, n)] }
       AtFront (s 1) 0 .main stWait ∧ AtFront (s 0) 0 .main stWait ∧ stIsWait stWait = true ∧ ((s 1).core 0).seq.waitHolds stWait = true
       ∧ ((s 0).core 0).seq.waitHolds stWait = false) := by
  unfold AtFront
  refine ⟨⟨⟨0, ?_⟩, ?_⟩, ⟨⟨0, ?_⟩, ?_⟩, ⟨⟨0, ?_⟩, ⟨0, ?_⟩, ?_⟩, ⟨⟨0, ?_⟩, ?_⟩, ⟨0, ?_⟩, ⟨0, ?_⟩, ?_⟩ <;> decide +kernel
/-- A loop at its last pass; two queues that want the one token of a counter, where the main queue goes first. -/
theorem witness_preferred :
    (let s := atStep (stMark 4 0) fun q => { q with main := { q.main with loops := [⟨1, 2, 2⟩] } }
     AtFront s 0 .main (stMark 4 0) ∧ (s.core 0).seq.main.loops = [⟨1, 2, 2⟩])
    ∧ (∀ st ∈ [stWait, stSig + 2 ^ 103 + 2 ^ 96],
      let s := atStep stWait fun q => { q with tok := [(3, 1)], idle := { run := some 1 } }
      let s := s.onSeq 0 fun q => q.setSlot 1 { state := .ready, steps := [BitVec.ofNat 128 st] }
      (s.core 0).seq.front .idle = some (1, st) ∧ (s.core 0).seq.waitHolds st = true ∧ (s.core 0).seq.outranked (syncRank .idle) st = true
      ∧ (s.core 0).seq.outranked (syncRank .main) stWait = false) := by
  unfold AtFront
  exact ⟨⟨⟨0, by decide +kernel⟩, by decide +kernel⟩, by decide +kernel⟩
theorem test_wait_moves_tokens : then_ (exec (.syncWait c00 .main) (atStep stWait fun q => { q with tok := [(3, 5)] }))
    (fun t => ((t.core 0).seq.tokOf 3, (t.core 0).seq.tokOf 4, (t.core 0).seq.main.pos)) = some (4, 1, 1) := by decide +kernel
theorem witness_frame_end_reached :
    let s (x : Bool) := withSeq id fun q => { q with main := { run := some 0, endDispatched := true, armed := x } }
    ∀ x, ((s x).core 0).seq.main.endDispatched = true ∧ ((s x).core 0).seq.main.run.isSome = true ∧ ((s x).core 0).seq.signals = []
      ∧ ((s x).core 0).seq.ramp = .idle ∧ ((s x).core 0).seq.main.armed = x ∧ ((s x).core 0).seq.main.due = false
      ∧ ((s x).core 0).seq.idle.due = false
      ∧ ∀ u ∈ [UnitName.array, .vector, .mover, .mesh], (((s x).core 0).seq.unit u).cur = none ∧ (((s x).core 0).seq.unit u).running = none
        ∧ (((s x).core 0).seq.unit u).overlap = none ∧ (((s x).core 0).seq.unit u).waiting = [] := by decide
/-- Images of a table of one FRAME_END, and of one step that no unit knows, in the alcove. -/
def loading (st : Nat) : State :=
  (withSeq id fun q => { q with slots := [(1, { state := .loading, src := BitVec.ofNat 512 (img 5 256 [4]) })] }).writeNat (alcoveBase 0 + 256) 16 st
theorem witness_table_loads :
    let x (s : State) := (s.core 0).seq.slot 1
    let steps (s : State) := [s.natAt (alcoveBase 0 + (Desc.ofBits (x s).src).base) 16]
    ((x (loading (stMark 1 0))).state = .loading ∧ (Desc.ofBits (x (loading (stMark 1 0))).src).space = 0 ∧ NoErrors (loading (stMark 1 0))
      ∧ (Desc.ofBits (x (loading (stMark 1 0))).src).extent 0 / 4 = 1
      ∧ tableCheck 0 (fun _ => none) 1 0 0 (steps (loading (stMark 1 0))) = none)
    ∧ ((x (loading 0)).state = .loading ∧ tableCheck 0 (fun _ => none) 1 0 0 (steps (loading 0)) ≠ none ∧ ((loading 0).core 0).seq.runs 1 = false)
    ∧ (x up).state ≠ .loading ∧ (x up).patches = [] := by unfold NoErrors; decide +kernel
theorem witness_table_refused : ∀ k, (((loading 0).core 0).seq.queue k).run ≠ some 1 := by
  intro k; cases k <;> decide +kernel
theorem witness_patch : let s := withSeq id fun q => { q with slots := [(1, { state := .ready, steps := [BitVec.ofNat 128 stFill], patches := [⟨0, 5, 0, 10⟩] })] }
    ((s.core 0).seq.slot 1).patches = [⟨0, 5, 0, 10⟩] ∧ ((s.core 0).seq.slot 1).steps[0]? = some (BitVec.ofNat 128 stFill)
    ∧ patchBits 0 (BitVec.ofNat 128 stFill).toNat = some (89, 80) := by decide +kernel
theorem witness_gallery_start :
    let s := ({ up with fr := { up.fr with ticked := true }, halls := [(0, { holder := some 1 })] } : State).onSeq 0 fun q =>
      { q with slots := [(0, { state := .ready })], main := { q.main with bind := some (0, 0), armed := true } }
    s.fr.ticked = true ∧ (s.hall 0).stage = .done ∧ s.inStep 0 = false ∧ (s.hall 0).started.getLsbD 0 = false ∧ (s.hall 0).holder.isSome = true
    ∧ coreAt 0 0 = 0 ∧ (s.core 0).seq.main.bind = some (0, 0) ∧ (s.core 0).seq.main.armed = true ∧ (s.core 0).seq.main.run = none
    ∧ ((s.core 0).seq.slot 0).state = .ready
    ∧ (∀ p, p < 25 → (s.core (coreAt 0 p)).seq.idle.armed = false)
    ∧ (159 : Nat) < 160 ∧ ({ s.hall 0 with started := 1 } : Hall).started.getLsbD 0 = true := by decide +kernel
/-- A gallery whose 25 cores all have a table bound for the start of the frame. -/
theorem witness_gallery_bound :
    let s := (List.range 25).foldl (fun (s : State) p => s.onSeq (coreAt 0 p) fun q =>
        { q with slots := [(3, { state := .ready })], main := { q.main with bind := some (3, 0), armed := true } })
      { up with fr := { up.fr with ticked := true }, halls := [(0, { holder := some 1 })] }
    s.fr.ticked = true ∧ (s.hall 0).stage = .done ∧ s.inStep 0 = false ∧ (s.hall 0).started.getLsbD 0 = false ∧ (s.hall 0).holder.isSome = true
    ∧ ∀ p, p < 25 → let q := (s.core (coreAt 0 p)).seq
      q.idle.armed = false ∧ q.main.armed = true ∧ q.main.run = none ∧ q.main.bind = some (3, 0) ∧ (q.slot 3).state = .ready := by decide +kernel
theorem witness_main_queue_start :
    let s := (withSeq id fun q => { q with slots := [(0, { state := .ready })], main := { q.main with bind := some (0, 3), armed := true } }).onHall 0
      fun h => { h with started := 1 }
    (s.hall (coreHall 0)).started.getLsbD (coreGallery 0 % 10) = true ∧ (s.core 0).seq.main.armed = true ∧ (s.core 0).seq.main.run = none
    ∧ (s.core 0).seq.main.bind = some (0, 3) ∧ ((s.core 0).seq.slot 0).state = .ready := by decide

/-! ### Steps of the units -/

/-- Steps through d1 and on: an addition of d2 and d3, COPY, GATHER and SCATTER with indices d3, PUT of d2 to core (1, 0), and a MATMUL of one
product. -/
def stAdd : Nat := 2 * 2 ^ 124 + 1 * 2 ^ 116 + 1 * 2 ^ 74 + 2 * 2 ^ 68 + 3 * 2 ^ 62 + 1 * 2 ^ 53
def stMove (op k : Nat) : Nat := 3 * 2 ^ 124 + op * 2 ^ 116 + 1 * 2 ^ 74 + 2 * 2 ^ 68 + (if op = 1 then 0 else 3 * 2 ^ 62) + k * 2 ^ 59
def stPut (op : Nat) : Nat := 4 * 2 ^ 124 + up.deviceId * 2 ^ 52 + op * 2 ^ 116 + 2 * 2 ^ 74 + 1 * 2 ^ 68 + 1 * 2 ^ 45 + 5 * 2 ^ 35
def stMatmul : Nat := 1 * 2 ^ 124 + 1 * 2 ^ 116 + 2 * 2 ^ 74 + 3 * 2 ^ 68 + 1 * 2 ^ 62

def valid (v : Nat) : DReg := ⟨BitVec.ofNat 512 v, true⟩
def entry (st : Nat) : Entry := ⟨.main, 0, 0, BitVec.ofNat 128 st, 0, 0, 0⟩
/-- A core with a step waiting in a unit, its descriptors in d1 to d3, and the context that holds the hall. -/
def waiting (u : UnitName) (st : Nat) (d : SMap DReg) : State :=
  held (fun c => { c with d := d }) fun q => q.setUnit u { waiting := [entry st] }
/-- 4 FP32 elements at 0, 64 and 128. -/
def dense : SMap DReg := [(1, valid (img 0 0 [4])), (2, valid (img 0 64 [4])), (3, valid (img 0 128 [4]))]
def rows : SMap DReg := [(1, valid (img 0 0 [4, 2])), (2, valid (img 0 64 [4, 2])), (3, valid (img 5 128 [2]))]
def mats : SMap DReg := [(1, valid (img 0 0 [1, 1])), (2, valid (img 1 64 [1, 1])), (3, valid (img 1 128 [1, 1]))]

/-- The state and the step of an iteration that a unit may start of a step that waits. -/
def begun (s : State) (u : UnitName) (st : Nat) : State :=
  (s.onSeq 0 fun y => y.setUnit u { y.unit u with waiting := (y.unit u).waiting.erase (entry st) }).onSeq 0 (·.consume (s.sample 0 (entry st)).st)
theorem begins_of (s : State) (u : UnitName) (st op : Nat) (h1 : ((s.core 0).seq.mayStart u .main && (s.core 0).seq.waitHolds (s.sample 0 (entry st)).st
      && stOp (s.sample 0 (entry st)).st == op && ((s.core 0).seq.unit u).of .main == none
      && ((s.core 0).seq.unit u).waiting.find? (fun e => decide (e.queue = .main)) == some (entry st)
      && s.issueCheck 0 (entry st).step.toNat == none && !(s.core 0).seq.outranked (unitRank .main u) (s.sample 0 (entry st)).st) = true) :
    Begins s 0 u .main op (begun s u st) (s.sample 0 (entry st)) := by
  simp only [Bool.and_eq_true, beq_iff_eq, Bool.not_eq_true'] at h1
  obtain ⟨⟨⟨⟨⟨⟨h1, h2⟩, h3⟩, h4⟩, h5⟩, h6⟩, h7⟩ := h1
  exact ⟨h1, h2, h3, h7, .inr ⟨h4, entry st, h5, h6, rfl, rfl⟩⟩
theorem witness_vector_begins : NoErrors (waiting .vector stFill dense) ∧ NoErrors (waiting .vector stAdd dense)
    ∧ Begins (waiting .vector stFill dense) 0 .vector .main 0x09 (begun (waiting .vector stFill dense) .vector stFill) ((waiting .vector stFill dense).sample 0 (entry stFill))
    ∧ Begins (waiting .vector stAdd dense) 0 .vector .main 0x01 (begun (waiting .vector stAdd dense) .vector stAdd) ((waiting .vector stAdd dense).sample 0 (entry stAdd)) :=
  ⟨rfl, rfl, begins_of _ _ _ _ (by decide +kernel), begins_of _ _ _ _ (by decide +kernel)⟩
/-- A step of which an iteration has already completed may start its next. -/
theorem witness_vector_continues :
    let r : Run := { (waiting .vector stFill dense).sample 0 (entry stFill) with iter := 1 }
    let s := held id fun q => { q with vector := { cur := some r } }
    Begins s 0 .vector .main 0x09 (s.onSeq 0 (·.consume r.st)) r :=
  ⟨by decide +kernel, by decide +kernel, by decide +kernel, by decide +kernel, .inl ⟨by decide +kernel, rfl⟩⟩
theorem witness_vector_waits :
    (up.core 0).seq.vector.candidate .main = none
    ∧ ((waiting .vector stFill dense).core 0).seq.vector.candidate .main = some (BitVec.ofNat 128 stFill)
    ∧ stOp (BitVec.ofNat 128 stFill).toNat ≠ 0x01
    ∧ ((waiting .vector (stFill + 2 ^ 100) dense).core 0).seq.vector.candidate .main = some (BitVec.ofNat 128 (stFill + 2 ^ 100))
    ∧ ((waiting .vector (stFill + 2 ^ 100) dense).core 0).seq.waitHolds (BitVec.ofNat 128 (stFill + 2 ^ 100)).toNat = false := by decide +kernel
theorem witness_step_refused :
    (let s := waiting .vector stFill []
     (stUses (entry stFill).step.toNat).any (fun u => ! ((s.core 0).cp.dreg u.reg).valid) = true ∧ s.inStep (coreHall 0) = false)
    ∧ ∀ p ∈ ([(.vector, stFill, 0x09), (.mover, stMove 1 1, 0x01), (.mesh, stPut 1, 0x01)] : List (UnitName × Nat × Nat)),
      let s := waiting p.1 p.2.1 []
      (∀ u ∈ [UnitName.array, .vector, .mover, .mesh], (s.core 0).seq.outranked (unitRank .main u) (entry p.2.1).step.toNat = false)
      ∧ s.issueCheck 0 (entry p.2.1).step.toNat = some 0x0126 ∧ 0x0126 < 2 ^ 16 ∧ (entry p.2.1).slot < 16 ∧ (entry p.2.1).idx < 4096
      ∧ (s.core 0).seq.waitHolds (entry p.2.1).step.toNat = true ∧ stOp (entry p.2.1).step.toNat = p.2.2
      ∧ (s.core 0).seq.mayStart p.1 .main = true ∧ ((s.core 0).seq.unit p.1).of .main = none
      ∧ ((s.core 0).seq.unit p.1).waiting.find? (fun e => decide (e.queue = .main)) = some (entry p.2.1) := by decide +kernel
theorem witness_mover_begins :
    (let s := waiting .mover (stMove 1 1) dense
     Begins s 0 .mover .main 1 (begun s .mover (stMove 1 1)) (s.sample 0 (entry (stMove 1 1)))
     ∧ ((begun s .mover (stMove 1 1)).copyIter 0 (s.sample 0 (entry (stMove 1 1)))).2.isSome = true)
    ∧ (let s : State := { waiting .mover (stMove 1 1) dense with mem := { up.mem with ecc := [⟨alcoveBase 0 + 64, true, false, []⟩] } }
       Begins s 0 .mover .main 1 (begun s .mover (stMove 1 1)) (s.sample 0 (entry (stMove 1 1)))
       ∧ ((begun s .mover (stMove 1 1)).copyIter 0 (s.sample 0 (entry (stMove 1 1)))).2.isSome = false)
    ∧ (let s := waiting .mover (stMove 2 2) rows
       Begins s 0 .mover .main 2 (begun s .mover (stMove 2 2)) (s.sample 0 (entry (stMove 2 2)))
       ∧ ((begun s .mover (stMove 2 2)).indexedIter 0 true (s.sample 0 (entry (stMove 2 2)))).2.isSome = true)
    ∧ (let s := waiting .mover (stMove 3 2) rows
       Begins s 0 .mover .main 3 (begun s .mover (stMove 3 2)) (s.sample 0 (entry (stMove 3 2)))
       ∧ ((begun s .mover (stMove 3 2)).indexedIter 0 false (s.sample 0 (entry (stMove 3 2)))).2.isSome = true) :=
  ⟨⟨begins_of _ _ _ _ (by decide +kernel), by decide +kernel⟩, ⟨begins_of _ _ _ _ (by decide +kernel), by decide +kernel⟩,
    ⟨begins_of _ _ _ _ (by decide +kernel), by decide +kernel⟩, begins_of _ _ _ _ (by decide +kernel), by decide +kernel⟩
/-- The sources, the rows and the indices of these steps lie in the alcove, and the indices are in range. -/
theorem witness_mover_local :
    CopySourceInAlcove 0 ((waiting .mover (stMove 1 1) dense).sample 0 (entry (stMove 1 1)))
    ∧ (∀ op ∈ [2, 3], let s := waiting .mover (stMove op 2) rows
       let r := s.sample 0 (entry (stMove op 2))
       IndicesGood s 0 r (r.desc (if op = 2 then 1 else 0))
       ∧ (op = 2 → RowsInAlcove 0 (r.desc 1) r ((List.range (stRank r.st - 1)).map (r.desc 1).opExt) ((r.desc 1).opExt (stRank r.st - 1)))
       ∧ (op = 3 → RowsInAlcove 0 (r.desc 1) r ((List.range (stRank r.st - 1)).map (r.desc 0).opExt) ((r.desc 2).extent 0))) := by
  unfold CopySourceInAlcove IndicesGood RowsInAlcove
  decide +kernel
theorem witness_mesh_begins : ∀ op ∈ [1, 2],
    let s := waiting .mesh (stPut op) rows
    NoErrors s ∧ Begins s 0 .mesh .main op (begun s .mesh (stPut op)) (s.sample 0 (entry (stPut op)))
    ∧ stDevice (s.sample 0 (entry (stPut op))).st = s.deviceId := by
  intro op h
  simp only [List.mem_cons, List.not_mem_nil, or_false] at h
  rcases h with rfl | rfl <;> exact ⟨rfl, begins_of _ _ _ _ (by decide +kernel), by decide +kernel⟩
theorem witness_array :
    let s := waiting .array stMatmul mats
    NoErrors s ∧ (s.core 0).seq.ramp = .idle ∧ Begins s 0 .array .main 1 (begun s .array stMatmul) (s.sample 0 (entry stMatmul))
    ∧ ((withSeq id fun q => { q with ramp := .down 54 }).core 0).seq.ramp = .down 54
    ∧ ∀ level, ((withSeq id fun q => { q with ramp := .active 64 64 }).core 0).seq.ramp ≠ .down level :=
  ⟨rfl, by decide +kernel, begins_of _ _ _ _ (by decide +kernel), by decide +kernel, fun _ h => nomatch h⟩
/-- An iteration of a step repeated once runs, and its next may join the schedule. -/
theorem witness_array_joins :
    let r : Run := { (waiting .array (stMatmul + 2 ^ 80) mats).sample 0 (entry (stMatmul + 2 ^ 80)) with busy := true }
    let s := held id fun q => { q with array := { cur := some r }, ramp := .active 64 64 }
    NoErrors s ∧ (s.core 0).seq.ramp = .active 64 64 ∧ (s.core 0).seq.array.running = some r ∧ (s.core 0).seq.array.overlap = none
    ∧ r.entry.queue = .main ∧ r.last = false ∧ r.cut = false ∧ (s.core 0).seq.waitHolds r.next.st = true
    ∧ (s.core 0).seq.outranked (unitRank .main .array) r.next.st = false := by unfold NoErrors; decide +kernel
theorem witness_completions :
    let r : Run := { (waiting .vector stFill dense).sample 0 (entry stFill) with busy := true, writes := [(alcoveBase 0, 1), (alcoveBase 0 + 196607, 2)], wide := [(alcoveBase 0, 3)] }
    ∀ u ∈ [UnitName.vector, .mover, .array],
      let s := held id fun q => q.setUnit u { cur := some r }
      ((s.core 0).seq.unit u).running = some r ∧ ((s.core 0).seq.unit u).of r.entry.queue = some r ∧ s.mem.ecc = []
      ∧ (∀ w ∈ r.writes ++ r.wide, alcoveBase 0 ≤ w.1 ∧ w.1 < alcoveBase 1) ∧ r.nan = false ∧ r.inf = false ∧ ((s.core 0).seq.unit u).overlap = none
      ∧ ((up.core 0).seq.unit u).running = none := by decide +kernel
theorem witness_array_completes :
    let r : Run := { (waiting .array stMatmul mats).sample 0 (entry stMatmul) with
      busy := true, writes := [(alcoveBase 0, 1)], wide := [(alcoveBase 0 + 64, 3)], was := [(alcoveBase 0, 0)] }
    let s := held id fun q => { q with array := { cur := some r }, ramp := .active 64 64 }
    (s.core 0).seq.array.running = some r ∧ (s.core 0).seq.array.of r.entry.queue = some r ∧ NoErrors s ∧ r.nan = false ∧ r.inf = false
    ∧ (s.core 0).seq.array.overlap = none ∧ s.changed r.was = [] ∧ (s.core 0).seq.ramp = .active 64 64 := by unfold NoErrors; decide +kernel
theorem witness_nan_operand : (f32 0x7FC00000).isNan = true ∧ (bf16.decode 0x3F80).isNan = false := by decide

/-- The first element of the results in progress in a unit of core 0, as the writes of its four bytes. -/
def wrote (i : Instr) (s : State) (u : UnitName) : Option (List Byte) :=
  then_ (exec i s) fun t => (((t.core 0).seq.unit u).running.map fun r => (r.writes.take 4).map (·.2)).getD []
-- 1.0 as BF16 is 0x3F80; in FP32 0x3F800000
theorem test_fill : wrote (.fill c00 .main) (waiting .vector stFill dense) .vector = some [0, 0, 0x80, 0x3F] := by decide +kernel
-- 1.0 + 2.0 = 3.0
theorem test_vector_add : wrote (.vectorAdd c00 .main)
    (((waiting .vector stAdd dense).writeNat (alcoveBase 0 + 64) 4 0x3F800000).writeNat (alcoveBase 0 + 128) 4 0x40000000) .vector = some [0, 0, 0x40, 0x40] := by
  decide +kernel
-- 2.0 * 3.0 = 6.0 through BF16 operands
theorem test_matmul : wrote (.arrayMatmul c00 .main)
    (((waiting .array stMatmul mats).writeNat (alcoveBase 0 + 64) 2 0x4000).writeNat (alcoveBase 0 + 128) 2 0x4040) .array = some [0, 0, 0xC0, 0x40] := by
  decide +kernel
theorem test_copy : wrote (.moverCopy c00 .main) ((waiting .mover (stMove 1 1) dense).writeNat (alcoveBase 0 + 64) 4 0x04030201) .mover
    = some [1, 2, 3, 4] := by decide +kernel
theorem test_gather_null_row : wrote (.gather c00 .main)
    (((waiting .mover (stMove 2 2) rows).writeNat (alcoveBase 0 + 64) 4 7).writeNat (alcoveBase 0 + 128) 4 0x80000000) .mover = some [0, 0, 0, 0] := by
  decide +kernel

/-! ### Packets -/

/-- A packet from core (1, 0) to core (0, 0) of the device. -/
def pkt (t : PacketType) : Packet :=
  { type := t, ddev := BitVec.ofNat 16 up.deviceId, dst := ⟨0, 0⟩, sdev := BitVec.ofNat 16 up.deviceId, src := ⟨1, 0⟩, job := 3, epoch := 7 }
/-- A device whose hall 0 the context of job 3 holds, with a packet in the mesh. -/
def flying (p : Packet) (f : Cp → Cp) (g : Seq → Seq) : State := { held f g with flight := [p] }

theorem arrives_of (s : State) (p : Packet) (h : (decide (p.dst.x.toNat < 80) && decide (p.dst.y.toNat < 50) && s.flight.contains p
      && s.nextMsg p && ! (s.flightDies p).any s.dieInReset) = true) :
    Arrives s none p { s with flight := s.flight.erase p } := by
  simp only [Bool.and_eq_true, decide_eq_true_eq, Bool.not_eq_true', List.contains_iff_mem] at h
  exact ⟨h.1.1.1.1, h.1.1.1.2, h.1.1.2, fun _ => h.1.2, rfl, h.2⟩
theorem arrives_other (s : State) (p : Packet) (h : (decide (p.dst.x.toNat < 80) && decide (p.dst.y.toNat < 50) && s.flight.contains p
      && p.type != .msg && ! (s.flightDies p).any s.dieInReset) = true) :
    Arrives s none p { s with flight := s.flight.erase p } := by
  simp only [Bool.and_eq_true, decide_eq_true_eq, Bool.not_eq_true', List.contains_iff_mem, bne_iff_ne] at h
  exact ⟨h.1.1.1.1, h.1.1.1.2, h.1.1.2, fun e => absurd e h.1.2, rfl, h.2⟩
/-- Every type of packet arrives somewhere where its context is, from the mesh. -/
theorem witness_arrives : ∀ t ∈ [PacketType.msg, .creditReq, .creditGrant, .creditRet, .put, .putAdd, .signal, .ack, .nack],
    (∃ s1, Arrives (flying (pkt t) id id) none (pkt t) s1) ∧ HeldBy (flying (pkt t) id id) (pkt t) 1 ∧ (pkt t).type = t := by
  intro t h
  simp only [List.mem_cons, List.not_mem_nil, or_false] at h
  rcases h with rfl | rfl | rfl | rfl | rfl | rfl | rfl | rfl | rfl
  · exact ⟨⟨_, arrives_of _ _ (by decide)⟩, by unfold HeldBy; decide, rfl⟩
  all_goals exact ⟨⟨_, arrives_other _ _ (by decide)⟩, by unfold HeldBy; decide, rfl⟩
/-- A device with port 0 in service. -/
def linked (s : State) : State := s.setFld (Reg.GAR_PORT_STATUS 0) 2 0 3
theorem witness_arrives_from_a_port : ∃ s1, Arrives (linked (held id id)) (some 0) (pkt .msg) s1 := by
  refine ⟨_, by decide, by decide, by decide +kernel, by decide +kernel, by decide +kernel, by decide +kernel, rfl, by decide +kernel⟩
theorem witness_receive_queue :
    let full := flying (pkt .msg) (fun c => { c with rx := [(0, { entries := List.replicate 12 (0, 0), res := 4, grants := [⟨coreWord (BitVec.ofNat 16 up.deviceId) ⟨1, 0⟩, 4, 0⟩] })] }) id
    let free := flying (pkt .msg) (fun c => { c with rx := [(0, { entries := List.replicate 15 (0, 0) })] }) id
    0 < granted (coreWord (pkt .msg).sdev (pkt .msg).src) ((full.core 0).cp.rxq 0).grants
    ∧ ((free.core 0).cp.rxq 0).entries.length + ((free.core 0).cp.rxq 0).res < 16 := by unfold granted; decide +kernel
/-- The hall of the destination is empty, in a reset step, or held by another job. -/
theorem witness_no_peer :
    NoPeer { up with flight := [pkt .msg] } (pkt .msg) ∧ NoPeer (flying { pkt .msg with job := 4 } id id) { pkt .msg with job := 4 }
    ∧ NoPeer { up with halls := [(0, { step := some ⟨.compute, 0, 0, { src := 0 }⟩ })] } (pkt .msg) := by
  unfold NoPeer
  refine ⟨.inr ⟨fun c h => ?_, by decide⟩, .inr ⟨fun c h => ?_, by decide⟩, .inl (by decide)⟩
  · have h1 : (({ up with flight := [pkt .msg] } : State).hall (coreHall (coreNo (pkt .msg).dst))).holder = none := by decide
    rw [h1] at h; cases h
  · have h1 : ((flying { pkt .msg with job := 4 } id id).hall (coreHall (coreNo ({ pkt .msg with job := 4 } : Packet).dst))).holder = some 1 := by decide
    rw [h1] at h; cases h; decide
theorem witness_post : (pkt .ack).ddev.toNat = up.deviceId ∧ (pkt .put).type ≠ .msg ∧ pkt .creditReq ∉ up.flight := by decide
/-- Bytes 11 to 16 of the header flit of a MSG to core (79, 49) of device 0x1234, by hand from Table 10.1. -/
theorem test_header : (({ type := .msg, ddev := 0x1234, dst := ⟨79, 49⟩, sdev := 0, src := ⟨0, 0⟩, payload := 0x55 } : Packet).headerFlit.drop 11).take 6
    = [0x88, 0x9F, 0x34, 0x12, 0x10, 0x55] := by decide +kernel
theorem test_msg_arrives : then_ (exec (.msg none { pkt .msg with payload := 99 }) (flying { pkt .msg with payload := 99 } id id))
    (fun t => (((t.core 0).cp.rxq 0).entries.map (·.1), t.flight.map (·.type))) = some ([99], [.ack]) := by decide +kernel
theorem test_credit_request : then_ (exec (.creditReq none (pkt .creditReq)) (flying (pkt .creditReq) id id))
    (fun t => (((t.core 0).cp.rxq 0).res, t.flight.map (·.count))) = some (4, [4]) := by decide +kernel
theorem witness_credit_grants :
    let p : Packet := { pkt .creditGrant with count := 2 }
    let old : List CacheEntry := (List.range 8).map fun i => ⟨2 ^ 16 * up.deviceId + 64 * (i + 2), 1⟩
    let s := flying p (fun c => { c with cache := old }) id
    (pkt .creditGrant).count = 0 ∧ p.count ≠ 0 ∧ ((s.core 0).cp.cache.filter fun e => e.dest ≠ fromWord p).length = 8
    ∧ (((flying p id id).core 0).cp.cache.filter fun e => e.dest ≠ fromWord p).length < 8
    ∧ (((s.core 0).cp.cache.filter fun e => e.dest ≠ fromWord p).getLast?).map (·.credits) = some 1
    ∧ (((s.core 0).cp.cache.filter fun e => e.dest ≠ fromWord p).getLast?).map (·.dest / 2 ^ 16) = some s.deviceId := by decide +kernel
/-- A hall in a handover drains; a port in service receives a packet of a reserved type. -/
theorem witness_draining :
    let p : Packet := { pkt .creditGrant with count := 2 }
    let s := (flying p id id).onHall 0 fun h => { h with stage := .handover }
    (∃ s1, Arrives s none p s1) ∧ HeldBy s p 1 ∧ s.draining (coreNo p.dst) = true ∧ p.count ≠ 0 ∧ fromWord p / 2 ^ 16 = s.deviceId
    ∧ (flying p id id).draining (coreNo p.dst) = false :=
  ⟨⟨_, arrives_other _ _ (by decide)⟩, by unfold HeldBy; decide, by decide, by decide, by decide, by decide⟩
theorem witness_reserved_type : (pkt .reserved).type = .reserved ∧ (linked up).portUp 0 = true ∧ ((linked up).port 0).rxWait = none := by
  decide +kernel
theorem witness_sender_timers :
    let s (raised : Bool) := held (fun c => { c with retryDue := true, block := .send w10.toNat 9 raised }) id
    (((s false).core 0).cp.retryDue = true ∧ ((s false).core 0).cp.block = .send w10.toNat 9 false ∧ ((s false).core 0).cp.creditReq = none
      ∧ ((s false).core 0).cp.creditsFor w10.toNat = 0 ∧ destDevice w10 = (s false).deviceId ∧ c00.x.toNat < 80 ∧ c00.y.toNat < 50)
    ∧ ((s true).core 0).cp.block = .send w10.toNat 9 true ∧ ((held id id).core 0).cp.retryDue = false
    ∧ ((held (fun c => { c with cache := [⟨w10.toNat, 4⟩] }) id).core 0).cp.creditsFor w10.toNat ≠ 0
    ∧ (((held (fun c => { c with rx := [(7, { grants := [⟨64, 3, 0⟩], res := 3 })] }) id).core 0).cp.rxq 7).grants = [⟨64, 3, 0⟩]
    ∧ (((held id id).core 0).cp.rxq 7).grants = [] := by decide
theorem witness_saved_grants :
    let cp : Cp := { rx := [(7, { grants := [⟨64, 3, 0⟩], res := 3 })] }
    let s : State := { up with ctxs := [(4095, { state := .preempted, saved := [(0, { record := some cp })] })] }
    (mapGet {} (s.ctx (4095 : CtxId).toNat).saved 0).record = some cp ∧ (cp.rxq 7).grants = [⟨64, 3, 0⟩] := by decide +kernel
theorem witness_epochs :
    let ahead (k : Nat) : Packet := { pkt .put with epoch := BitVec.ofNat 16 (7 + k) }
    (pkt .put).epoch.toNat = ((held id id).ctx 1).epoch % 2 ^ 16
    ∧ ∀ k ∈ [1, 0x7FFF, 0x8000, 0xFFFF], 1 ≤ k ∧ k < 2 ^ 16 ∧ (ahead k).epoch.toNat = (((held id id).ctx 1).epoch + k) % 2 ^ 16 := by decide
theorem witness_tiles :
    let d := Desc.ofBits (BitVec.ofNat 512 (img 0 0 [2, 2]))
    let p : Packet := { pkt .put with dd := 1, format := 0, ext0 := 2, ext1 := 2, bytes := 16, data := List.replicate 16 1 }
    let s := flying p (fun c => { c with d := [(1, valid (img 0 0 [2, 2]))] }) id
    s.mem.ecc = [] ∧ s.descOf 0 p.dd.toNat = some d ∧ rxDescCheck 0 p d = none
    ∧ rxDescCheck 0 { p with dd := 2 } (s.descOf 0 2) ≠ none := by decide +kernel
theorem witness_signals :
    let s (n : Nat) := (atStep (if n = 0 then stSig else stSig + 2 ^ 100) id).onHall 0 fun h => { h with holder := some 1 }
    (s 0).core 0 ≠ up.core 0 ∧ ((s 0).core 0).seq.front .main = some (0, stSig) ∧ stIsSignal stSig = true ∧ ((s 0).core 0).seq.waitHolds stSig = true
    ∧ (s 0).issueCheck 0 stSig = none ∧ stDevice stSig = (s 0).deviceId
    ∧ ((s 1).core 0).seq.front .main = some (0, stSig + 2 ^ 100) ∧ ((s 1).core 0).seq.waitHolds (stSig + 2 ^ 100) = false := by decide +kernel
/-- A PUT in progress as tile 9, and a SIGNAL sent as tile 9. -/
def putRun : Run := { entry := entry (stPut 1), busy := true, tile := 9 }
def sent : SignalOut := { tile := 9, entry := entry stSig, epoch := 7 }
def sending (c : Cp → Cp) (retry : Bool) : State := held c fun q => { q with mesh := { cur := some { putRun with retry := retry } } }
def signalling (retry : Bool) : State := held id fun q => { q with signals := [{ sent with retry := retry }] }
theorem witness_replies :
    let e : SendEntry := ⟨fromWord (pkt .ack), 5, 10⟩
    let ns : Packet := { pkt .nack with code := 0x0501 }
    (((held (fun c => { c with sendBuf := [e] }) id).core 0).cp.sendBuf.find? (fun e => e.dest == fromWord (pkt .ack)) = some e ∧ (pkt .ack).tile = 0)
    ∧ (let q := ((sending id false).core 0).seq
       q.mesh.running = some putRun ∧ q.mesh.of putRun.entry.queue = some putRun ∧ putRun.tile = (9 : W32).toNat ∧ putRun.writes = []
       ∧ putRun.overflow = false ∧ (sending id false).mem.ecc = [] ∧ putRun.entry.slot < 16 ∧ putRun.entry.idx < 4096 ∧ putRun.last = true)
    ∧ (((signalling false).core 0).seq.mesh.running = none ∧ ((signalling false).core 0).seq.signals.find? (fun g => g.tile == (9 : W32).toNat) = some sent)
    ∧ ns.code.toNat ≠ 0x0807 ∧ ns.code.toNat ≠ 0x0503 ∧ (0x0503 : W16).toNat ≠ 0x0807
    ∧ (((held (fun c => { c with sendBuf := [e] }) id).core 0).cp.sendBuf.find? (fun e => setBits e.dest 15 13 0 == coreWord ns.sdev ns.src) = some e
      ∧ e.pc < 4096 ∧ e.dest < 2 ^ 32)
    ∧ (((held (fun c => { c with creditReq := some e.dest }) id).core 0).cp.sendBuf = []
      ∧ ((held (fun c => { c with creditReq := some e.dest }) id).core 0).cp.creditReq = some e.dest ∧ setBits e.dest 15 13 0 = coreWord ns.sdev ns.src) := by
  decide +kernel
theorem witness_retries :
    (((held id id).core 0).seq.mesh.running = none ∧ ((held id id).core 0).seq.signals = [])
    ∧ (let r : Run := { putRun with retry := true }
       ((sending id true).core 0).seq.mesh.running = some r ∧ ((sending id true).core 0).seq.mesh.of r.entry.queue = some r ∧ r.tile = (9 : W32).toNat
       ∧ r.retry = true ∧ stDevice r.st = (sending id true).deviceId ∧ (9 : W32) ≠ 0)
    ∧ (let g : SignalOut := { sent with retry := true }
       ((signalling true).core 0).seq.mesh.running = none ∧ ((signalling true).core 0).seq.signals.find? (fun g => g.tile == (9 : W32).toNat) = some g
       ∧ g.retry = true ∧ stDevice g.entry.step.toNat = (signalling true).deviceId)
    ∧ ((held (fun c => { c with sendBuf := [⟨64, 5, 4095⟩] }) id).core 0).cp.sendBuf = [⟨64, 5, 4095⟩] := by decide +kernel

/-! ### Time, frames, loss scale and landings -/

/-- A device whose counter is loaded and in a state of discipline. -/
def timed (d : Disc) : State := { up with clk := { up.clk with time := 5 * unitsPerNs, loaded := true, disc := d, lockRun := 7 } }
theorem witness_time :
    up.ready = true ∧ bit (up.reg Reg.FTK_CTRL) 0 = false ∧ up.fr.ticking = false ∧ bit ((up.setReg Reg.FTK_CTRL 1).reg Reg.FTK_CTRL) 0 = true
    ∧ bits (0x20 : W32).toNat 6 5 ≠ up.fld Reg.FTK_CTRL 6 5 ∧ bit (0x20 : W32).toNat 0 = bit (up.reg Reg.FTK_CTRL) 0
    ∧ (timed .holdover).clk.disc = .holdover ∧ up.clk.disc ≠ .holdover ∧ up.fld Reg.FTK_CTRL 6 5 < 2
    ∧ (let s := (timed .acquiring).setReg Reg.FTK_CTRL 0x40
       s.fld Reg.FTK_CTRL 6 5 = 2 ∧ s.clk.loaded = true ∧ s.clk.disc = .acquiring ∧ s.fr.ticking = false
       ∧ s.clk.time % (1000000000 * unitsPerNs) ≤ unitsPerNs * s.fld Reg.FTK_LOCK_NS 7 0 ∧ 7 ≤ s.clk.lockRun)
    ∧ up.clk.lockRun < 7 ∧ up.clk.loaded = false := by decide +kernel
theorem test_set_loads : then_ (exec .ftkSet ((up.setReg Reg.FTK_SET_SEC 2).setReg Reg.FTK_SET_NS 3)) (fun t => (t.timeNs, t.clk.loaded))
    = some (2000000003, true) := by decide +kernel
theorem witness_runs :
    let tick : State := { timed .locked with fr := { up.fr with ticking := true } }
    (timed .locked).ready = true ∧ bits (1 : W32).toNat 6 5 = (timed .locked).fld Reg.FTK_CTRL 6 5 ∧ bit ((timed .locked).reg Reg.FTK_CTRL) 0 = false
    ∧ (timed .locked).fr.ticking = false ∧ (timed .locked).clk.loaded = true ∧ (timed .locked).clk.disc = .locked
    ∧ up.clk.loaded ≠ true ∧ tick.fr.ticking = true ∧ bit (tick.reg Reg.FTK_CTRL) 0 = false
    ∧ bit ((tick.setReg Reg.FTK_CTRL 1).reg Reg.FTK_CTRL) 0 = true ∧ (tick.setReg Reg.FTK_CTRL 1).fr.landing = .closed
    ∧ (tick.setReg Reg.FTK_CTRL 1).fr.ticked = false
    ∧ tick.fr.stopPending = false ∧ tick.fr.ticked = false ∧ tick.fr.landing ≠ .step2 := by decide +kernel
theorem test_tick_counts : then_ (exec .tick { timed .locked with fr := { up.fr with ticking := true } }) (fun t => (t.frame, t.fr.ticked)) = some (1, true) := by
  decide +kernel
theorem witness_frame_configuration :
    frameCfgReg Reg.FTK_CTRL = false ∧ frameCfgReg Reg.FTK_PERIOD = true ∧ (regRow Reg.FTK_PERIOD).isSome = true
    ∧ up.frameValueOk Reg.FTK_PERIOD 50000 = true ∧ up.frameValueOk Reg.FTK_PERIOD 2000000 = true ∧ up.frameValueOk Reg.FTK_PERIOD 49999 = false
    ∧ up.frameValueOk Reg.FTK_PERIOD 2000001 = false ∧ Reg.FTK_PERIOD = 0x100040 ∧ up.reg Reg.FTK_LANDING ≤ 20000 := by decide +kernel

/-- The pulse of a landing is high when FTK_PPS_CTRL is written with another mode. -/
theorem witness_pulse_falls :
    let s : State := { up with fr := { up.fr with ppsHigh := true } }
    s.fr.ppsHigh = true ∧ bits 0x10000 1 0 ≠ 3 ∧ up.fr.ppsHigh = false ∧ frameCfgReg Reg.FTK_PPS_CTRL = true ∧ s.frameValueOk Reg.FTK_PPS_CTRL 0x10000 = true
    ∧ (regRow Reg.FTK_PPS_CTRL).isSome = true := by decide +kernel
/-- Loss-scale group 0, bound to context 1 of job 3, with device 9 as its peer. -/
def grouped (g : LsGroup) : State :=
  { (((up.setReg (Reg.CTX_LS_CTRL 0) (2 ^ 31 + 2 ^ 16 + 1)).setReg (Reg.CTX_LS_PEER 0 0) 9)) with
    ctxs := [(1, { state := .running, job := 3, named := 1 })], ls := if g = {} then [] else [(0, g)] }
def flag (f : W16) (st : W32) (e : Byte) : Packet :=
  { type := .lsflag, ddev := 0, dst := ⟨0, 0⟩, sdev := 9, src := ⟨0, 0⟩, job := 3, frame := f, step := st, exp := e, flag := true }
def heard (p : Packet) : State := { grouped {} with flight := [p] }
/-- A group whose exchange is to end: its context is destroyed, or EN was written 0; and one whose exchange goes on. -/
theorem witness_exchanges_end :
    let m : LsMsg := ⟨9, 0, true, false, 0, 0⟩
    let s (x : LsGroup) : State := { grouped {} with fr := { up.fr with landing := .step2 }, ls := [(0, x), (15, { inStep2 := true })] }
    ((s { inStep2 := true, gone := true }).lsGroup 0).gone = true ∧ ((s { inStep2 := true, gone := true }).lsGroup 15).inStep2 = true
    ∧ (s { inStep2 := true, gone := true }).fr.landing = .step2
    ∧ (let x : LsGroup := { inStep2 := true, msgs := [m] }
       ((s x).lsGroup 0).gone = false ∧ ((s x).lsGroup 0).stopping = false
       ∧ ∀ y ∈ (s x).lsPeers 0 |>.map fun d => x.msgs.find? fun m => m.peer == d && m.round == x.round, y.isSome = true)
    ∧ bit ((s { inStep2 := true }).reg (Reg.CTX_LS_CTRL 0)) 31 = true ∧ bit (0 : W32).toNat 31 = false
    ∧ ((s { inStep2 := true }).lsGroup 0).inStep2 = true ∧ ((s {}).lsGroup 0).inStep2 = false ∧ (s {}).ready = true := by decide +kernel
theorem witness_flags :
    (∀ p ∈ [flag 0 1 0, flag 0 0 0xFF, flag 5 0 0],
      ArrivesAtDevice (heard p) none p { heard p with flight := (heard p).flight.erase p } ∧ p.type = .lsflag ∧ (heard p).lsGroupFor p.job.toNat = some 0)
    ∧ (flag 0 1 0).frame.toNat = (heard (flag 0 1 0)).frame % 65536 ∧ (flag 0 1 0).step.toNat ≠ (heard (flag 0 1 0)).reg (Reg.CTX_LS_STEP 0)
    ∧ (flag 5 0 0).frame.toNat ≠ (heard (flag 5 0 0)).frame % 65536
    ∧ ((flag 0 0 0xFF).step.toNat = (heard (flag 0 0 0xFF)).reg (Reg.CTX_LS_STEP 0)
      ∧ (flag 0 0 0xFF).exp.toNat ≠ (heard (flag 0 0 0xFF)).fld (Reg.CTX_LS_STATE 0) 31 24)
    ∧ up.lsGroupFor 3 = none := by
  refine ⟨fun p h => ?_, by decide +kernel, by decide +kernel, by decide +kernel, by decide +kernel, by decide +kernel⟩
  simp only [List.mem_cons, List.not_mem_nil, or_false] at h
  rcases h with rfl | rfl | rfl <;> exact ⟨⟨by decide, rfl⟩, rfl, by decide +kernel⟩
theorem witness_rounds :
    let m : LsMsg := ⟨9, 0, true, false, 0, 0⟩
    let s (rounds : Nat) (other : Bool) : State :=
      { (grouped { inStep2 := true, msgs := [m] }).setFld (Reg.CTX_LS_CTRL 0) 9 8 rounds with
        fr := { up.fr with landing := .step2 }, ls := (0, { inStep2 := true, msgs := [m] }) :: if other then [(15, { inStep2 := true })] else [] }
    (s 0 true).fr.landing = .step2 ∧ ((s 0 true).lsGroup 0).inStep2 = true ∧ ((s 0 true).lsGroup 0).request = none
    ∧ ((s 0 true).lsPeers 0).map (fun d => ((s 0 true).lsGroup 0).msgs.find? fun m => m.peer == d && m.round == 0) = [some m]
    ∧ (s 0 true).fld (Reg.CTX_LS_CTRL 0) 9 8 + 1 ≤ 1 ∧ ((s 0 true).lsGroup 15).inStep2 = true
    ∧ 1 < (s 1 true).fld (Reg.CTX_LS_CTRL 0) 9 8 + 1 ∧ (up.lsGroup 0).inStep2 = false := by decide +kernel
theorem witness_decisions :
    ((grouped { stepOvf := true }).lsGroup 0).stepOvf = true
    ∧ (let s := ((grouped {}).setReg (Reg.CTX_LS_LIMITS 0) 1)
       (s.lsGroup 0).stepOvf = false ∧ (s.fld (Reg.CTX_LS_STATE 0) 15 0 + 1) % 65536 = s.fld (Reg.CTX_LS_LIMITS 0) 15 0)
    ∧ (let s := ((grouped {}).setReg (Reg.CTX_LS_LIMITS 0) 2)
       (s.fld (Reg.CTX_LS_STATE 0) 15 0 + 1) % 65536 ≠ s.fld (Reg.CTX_LS_LIMITS 0) 15 0)
    ∧ bit ((grouped {}).reg (Reg.CTX_LS_CTRL 0)) 31 = true ∧ ((grouped {}).lsGroup 0).request = none
    ∧ ((grouped { request := some (0, 0) }).lsGroup 0).request ≠ none ∧ bit (up.reg (Reg.CTX_LS_CTRL 0)) 31 = false
    ∧ up.feature 7 = false ∧ (grouped {}).ready = true := by decide +kernel
theorem witness_group_enable :
    let s : State := { up.setReg Reg.DEV_FEATURE_CTRL 1 |>.setReg Reg.DEV_FEATURE_ACCEPT0 0x80 with ctxs := [(1, { state := .ready, named := 1 })] }
    let s' : State := { s with ctxs := [(1, { state := .ready, named := 1, ranges := [⟨0, 1, 1, true, true⟩] })] }
    s.feature 7 = true ∧ s.lsConfigOk 0 (2 ^ 31 + 2 ^ 16) = false ∧ s'.feature 7 = true ∧ s'.lsConfigOk 0 (2 ^ 31 + 2 ^ 16) = true
    ∧ bit (s'.reg (Reg.CTX_LS_CTRL 0)) 31 = false := by decide +kernel
theorem witness_landing_open :
    let s : State := { timed .locked with fr := { up.fr with ticking := true, ticked := true } }
    s.fr.ticking = true ∧ s.fr.ticked = true ∧ s.fr.landing ≠ .step2 ∧ (∀ g, g < 16 → s.lsOn g = false)
    ∧ (∀ g, g < 16 → (s.lsGroup g).inStep2 = false) ∧ up.fr.ticked ≠ true := by decide +kernel
theorem witness_handover :
    let s : State := { up with halls := [(0, { stage := .handover, incoming := some 1 })], ctxs := [(1, { state := .ready, named := 1 })] }
    (s.hall 0).stage = .handover ∧ s.inStep 0 = false ∧ s.spillReady 0 = true ∧ (s.hall 0).incoming = some 1 ∧ (s.ctx 1).everRan = false
    ∧ (s.hall 0).holder = none ∧ (up.hall 0).stage ≠ .handover := by decide +kernel
theorem witness_admissions :
    let s : State := ({ up with halls := [(0, { stage := .admissions, holder := some 1 })], ctxs := [(1, { state := .running, named := 1 })] } : State).onCp 0
      fun c => { c with pc := 5 }
    s.power.classReqs = [] ∧ (∀ h, h < 16 → (s.hall h).stage = .admissions → s.inStep h = false ∧ (s.hall h).due = none ∧ (s.hall h).request = none
        ∧ (s.hall h).replay = none ∧ (s.hall h).suspects = [] ∧ (s.hall h).resolved = [] ∧ s.awaited h = [])
    ∧ (s.hall 0).stage = .admissions ∧ (s.hall 15).stage ≠ .admissions ∧ coreHall 0 = 0 ∧ s.core 0 ≠ {} ∧ (s.core 0).seq.main.run = none
    ∧ (s.ctx 1).step7 = false := by decide +kernel

/-! ### Rings and commands -/

/-- A submission entry: its opcode, its context, and fields as (offset, value). -/
def sqe (op ctx : Nat) (l : List (Nat × Nat)) : BitVec 512 :=
  BitVec.ofNat 512 (op + 2 ^ 16 * ctx + (l.map fun e => e.2 * 256 ^ e.1).sum)
/-- A command accepted on ring 0 as SEQ 0. -/
def cmd (op ctx : Nat) (l : List (Nat × Nat)) : Cmd := { seq := 0, id := 5, entry := sqe op ctx l, serial := 7, accepted := true }
/-- A device with every hall and region online, rings 0 and 2 enabled, and a command accepted on ring 0. -/
def commanded (k : Cmd) : State :=
  { (up.setReg Reg.DEV_HALL_ONLINE 0xFFFF).setReg Reg.MEM_REGION_ONLINE 0xFFFF with
    rings := [(0, { state := .enabled, cmds := [k] }), (2, { state := .enabled })], serial := 10 }
theorem performs_of (s : State) (ring : RingId) (seq : W32) (op : Nat) (k : Cmd) (h : ((s.ring ring.toNat).cmds.find? (fun x => x.seq == seq.toNat) == some k
      && decide ((s.ring ring.toNat).cmds.map (·.id)).Nodup && k.op == op && !k.started && k.accepted) = true) : Performs s ring seq op k := by
  simp only [Bool.and_eq_true, beq_iff_eq, decide_eq_true_eq, Bool.not_eq_true'] at h
  exact ⟨h.1.1.1.1, h.1.1.1.2, h.1.1.2, h.1.2, h.2⟩
theorem room_of (r : Ring) (h : (r.state != .disabled && decide (r.posted - r.released < r.cqSize) && r.held == []) = true) : Room r := by
  simp only [Bool.and_eq_true, beq_iff_eq, decide_eq_true_eq, bne_iff_ne] at h
  exact ⟨h.1.1, h.1.2, h.2⟩
/-- A fresh ring with all but one of its completion slots in use has room. -/
theorem witness_room : Room { state := .enabled, posted := 15 } ∧ Room ((commanded (cmd 1 0 [])).ring 0) :=
  ⟨room_of _ (by decide), room_of _ (by decide)⟩
theorem witness_ring_commands :
    (∀ k ∈ [cmd 1 0 [], cmd 2 0 [(16, 3), (20, 4), (21, 16)], cmd 2 0 [(16, 2), (20, 4), (21, 16)], cmd 2 0 [(16, 3), (20, 17), (21, 4)],
        cmd 2 1 [(16, 3), (20, 16), (21, 4), (22, 1)], cmd 3 0 [(16, 2)], cmd 3 0 [(16, 9)], cmd 4 0 [(16, 1), (18, 16), (20, 4), (22, 1), (32, 1)],
        cmd 4 0 [(16, 1), (20, 4)], cmd 5 0 [(16, 4096), (24, 8192)]],
      (decide ((commanded k).ringFn 0 = 0) && k.op != 0 && ((commanded k).ring 0).cmds == [k]) = true ∧ Room ((commanded k).ring 0)
        ∧ Performs (commanded k) 0 0 k.op k)
    ∧ (let s := commanded (cmd 2 0 [(16, 3), (20, 4), (21, 16)])
       s.isAdmin 3 = false ∧ (s.ring 3).state = .disabled ∧ 4 ≤ (cmd 2 0 [(16, 3), (20, 4), (21, 16)]).at_ 20 1 ∧ s.isAdmin 0 = true
       ∧ (s.ring 2).state ≠ .disabled ∧ s.isAdmin 2 = false ∧ (2 : Nat) ≠ (0 : RingId).toNat)
    ∧ (let s : State := { commanded (cmd 2 1 [(16, 3), (20, 16), (21, 4), (22, 1)]) with ctxs := [(1, { state := .ready })] }
       (s.ctx 1).state ≠ .free ∧ (s.rings.filter fun e => decide (e.2.state ≠ .disabled ∧ e.2.bound = some 1)).length < 255)
    ∧ (let s := commanded (cmd 4 0 [(16, 1), (18, 16), (20, 4), (22, 1), (32, 1)])
       s.ctxsOf 1 = [] ∧ s.pcie.vfs = [] ∧ (∀ e ∈ s.rings, 16 ≤ e.1 → e.1 < 20 → e.2.state = .disabled ∨ s.ringFn e.1 ≠ 0))
    ∧ (let s : State := { commanded (cmd 2 0 [(16, 16), (20, 4), (21, 16)]) with pcie := { up.pcie with vfs := [(1, some ⟨16, 4, 1, 0, 1⟩)] } }
       s.ringFn 16 ≠ s.ringFn 0)
    ∧ ((up.ring 0).cmds = []) := by
  refine ⟨fun k h => ?_, by decide +kernel, by decide +kernel, by decide +kernel, by decide +kernel, by decide +kernel⟩
  simp only [List.mem_cons, List.not_mem_nil, or_false] at h
  rcases h with rfl | rfl | rfl | rfl | rfl | rfl | rfl | rfl | rfl | rfl <;>
    exact ⟨by decide +kernel, room_of _ (by decide +kernel), performs_of _ _ _ _ _ (by decide +kernel)⟩
theorem test_nop_completes : then_ (exec (.nop 0 0) (commanded (cmd 1 0 [(8, 77)])))
    (fun t => t.out.map fun o => match o with | .completion r s a b => [r, s, a, b.length, leField (b.take 8) 0 8] | _ => [])
    = some [[0, 0, 0, 28, 77], [0, 0, 28, 4, 2 ^ 31 + 2 ^ 16]] := by decide +kernel
theorem witness_doorbells :
    let s := commanded (cmd 1 0 [])
    let e : State := { s with rings := [(2, { state := .error, posted := 3 })] }
    s.pageRing 0 2 = some 2 ∧ s.pageRing 1 0 = none ∧ (s.ring 2).state = .enabled ∧ (15 : W32).toNat < 2 ^ (s.ring 2).sqLog2
    ∧ 2 ^ (s.ring 2).sqLog2 ≤ (16 : W32).toNat ∧ (15 : W32).toNat < 2 ^ (s.ring 2).cqLog2 ∧ 2 ^ (s.ring 2).cqLog2 ≤ (16 : W32).toNat
    ∧ (s.ring 2).held = [] ∧ e.pageRing 0 2 = some 2 ∧ (e.ring 2).state ≠ .enabled ∧ (e.ring 2).state ≠ .disabled := by decide +kernel
theorem test_cq_head : then_ (exec (.cqHead 0 2 3) { up with rings := [(2, { state := .enabled, posted := 5, released := 1 })] }) (fun t => (t.ring 2).released) = some 3 := by
  decide +kernel
/-- The bytes of a NOP entry and of one of an unknown opcode. -/
def nopBytes : List Byte := 1 :: List.replicate 63 0
theorem witness_fetch :
    let s : State := { up with rings := [(0, { state := .enabled, sqTail := 1, seqNext := 0xFFFFFFFF })], serial := 10, pcie := { up.pcie with linkUp := true } }
    s.ring 0 ≠ {} ∧ (s.ring 0).state = .enabled ∧ s.pcie.linkUp = true ∧ (s.ring 0).fetched ≠ (s.ring 0).sqTail
    ∧ nopBytes.length = 64 ∧ s.entryCheck 0 (entryOf nopBytes) = none ∧ (s.ring 0).cmds = []
    ∧ bit ((BitVec.toNat (entryOf nopBytes)) / 256 % 256) 1 = false
    ∧ s.entryCheck 0 (entryOf (List.replicate 64 0)) ≠ none ∧ (up.ring 0).state ≠ .enabled := by decide +kernel
/-- A ring with nothing to fetch whose completion queue has received a record, and one that never has. -/
theorem witness_failed_write :
    let s : State := { up with rings := [(0, { state := .enabled, posted := 1 }), (2, { state := .enabled })], pcie := { up.pcie with linkUp := true } }
    (s.ring 0).state = .enabled ∧ s.pcie.linkUp = true ∧ (s.ring 0).fetched = (s.ring 0).sqTail ∧ (s.ring 0).posted ≠ 0
    ∧ (s.ring 2).fetched = (s.ring 2).sqTail ∧ (s.ring 2).posted = 0 := by decide +kernel
theorem witness_admin :
    let s := up.setReg Reg.DEV_FEATURE_CTRL 1
    let v : W32 := BitVec.ofNat 32 (2 ^ 31 + 2 ^ 16 * 2047 + 2 ^ 8 * 4 + 16)
    up.ready = true ∧ up.locked = false ∧ s.locked = true ∧ s.fnUsable 0 = true ∧ s.adminRing 0 = some 0 ∧ (s.ring 0).state = .disabled
    ∧ v.toNat % 32 = 16 ∧ v.toNat / 2 ^ 8 % 32 = 4
    ∧ (let q : State := { commanded (cmd 1 0 []) with pcie := { up.pcie with ringQueries := [(0, some 2)] } }
       mapGet none q.pcie.ringQueries (0 : Fn).toNat = some 2 ∧ (q.ring 2).seqNext < 2 ^ 32 ∧ (q.ring 2).bound = none ∧ mapGet none up.pcie.ringQueries 0 = none)
    ∧ (let q : State := { up with pcie := { up.pcie with linkUp := true, vfEnable := true, pba := [7] } }
       (16 : Fn).toNat ≤ 16 ∧ (127 : BitVec 11).toNat < 128 ∧ q.pcie.vfEnable = true ∧ 4096 * (0 : Fn).toNat + (7 : BitVec 11).toNat ∈ q.pcie.pba ∧ q.pcie.linkUp = true
       ∧ 4096 * (0 : Fn).toNat + (8 : BitVec 11).toNat ∉ q.pcie.pba)
    ∧ (29 : BitVec 6).toNat < 30 ∧ 30 ≤ (30 : BitVec 6).toNat ∧ (40 : BitVec 6).toNat ≤ 40 ∧ 40 < (41 : BitVec 6).toNat := by decide +kernel
theorem witness_host_resets :
    let l : State := { commanded (cmd 1 0 []) with pcie := { up.pcie with linkUp := true, vfEnable := true, vfs := [(1, some ⟨16, 4, 1, 0, 1⟩)] },
                                                   ctxs := [(1, { state := .ready, fn := 1 })] }
    l.pcie.linkUp = true ∧ l.rings.map (fun e => decide (e.2.state = .enabled)) = [true, true] ∧ up.rings = [] ∧ up.pcie.linkUp = false
    ∧ (∀ e ∈ up.ctxs, e.2.fn = 0) ∧ l.pcie.vfEnable = true ∧ l.ringFn 16 = (1 : Fn).toNat ∧ (l.ctx 1).fn = (1 : Fn).toNat ∧ (l.ctx 1).state ≠ .free
    ∧ l.heldBy 1 = [] ∧ (l.ctx 1).fn ≠ 0 ∧ l.ringFn 16 ≠ 0 ∧ up.pcie.vfEnable = false
    ∧ (8 : BitVec 4).toNat ∈ [1, 2, 4, 8] ∧ (5 : BitVec 4).toNat ≤ 5 ∧ (3 : BitVec 4).toNat ∉ [1, 2, 4, 8] := by decide +kernel
theorem witness_features :
    let lock := up.setReg Reg.DEV_FEATURE_CTRL 1
    up.feature 0 = false ∧ (lock.setReg Reg.DEV_FEATURE_ACCEPT0 1).feature 0 = true ∧ lock.ready = true ∧ lock.locked = true ∧ up.locked = false
    ∧ (up.setReg Reg.DEV_FEATURE_ACCEPT1 1).reg Reg.DEV_FEATURE_ACCEPT1 ≠ 0 ∧ up.reg Reg.DEV_FEATURE_ACCEPT1 = 0
    ∧ up.reg Reg.DEV_FEATURE_ACCEPT0 = 0 ∧ (up.setReg Reg.DEV_FEATURE_ACCEPT0 1).reg Reg.DEV_FEATURE_ACCEPT0 &&& up.reg Reg.DEV_FEATURE_OFFER0 = 1 := by decide +kernel

/-! ### Contexts -/

/-- A device with a command on ring 0 and a context 1. -/
def forCtx (k : Cmd) (x : Ctx) : State := { commanded k with ctxs := [(1, x)] }
theorem witness_epoch_entries :
    let s : State := { commanded (cmd 0x22 1 []) with ctxs := [(1, { state := .ready, epoch := 4, fenceWriting := [(⟨0, 5⟩, 9)] })] }
    (s.ctx 1).fenceWriting = (⟨0, 5⟩, 9) :: [] ∧ s.fr.landing = .closed
    ∧ (s.ring 0).cmds.find? (fun y => y.id == 5) = some (cmd 0x22 1 []) ∧ Room (s.ring 0) ∧ (s.ctx 2).fenceWriting = [] :=
  ⟨by decide +kernel, by decide +kernel, by decide +kernel, room_of _ (by decide +kernel), by decide +kernel⟩

/-- A command that creates a context on a hall mask. -/
def creates (mask : Nat) (l : List (Nat × Nat)) : Cmd := cmd 0x10 0 ((18, mask) :: l)
theorem witness_create_context :
    (∀ k ∈ [creates 0 [], creates 1 [(16, 128)], creates 0x8001 [(16, 3), (20, 7), (24, 2)]],
      Room ((commanded k).ring 0) ∧ (commanded k).ringFn 0 = 0 ∧ Performs (commanded k) 0 0 0x10 k
      ∧ ∃ c, c < 4096 ∧ ((commanded k).ctx c).state = .free)
    ∧ (creates 0 []).at_ 18 2 = 0 ∧ bit ((creates 0x8001 []).at_ 18 2) 15 = true ∧ (up.online 15 = false)
    ∧ (commanded (creates 0x8001 [])).maskOk 0x8001 = true ∧ bit ((creates 1 [(16, 128)]).at_ 16 1) 7 = true
    ∧ bit ((creates 1 [(16, 128)]).at_ 17 1) 0 = false
    ∧ ({ commanded (creates 1 [(16, 128)]) with ctxs := (List.range 8).map fun i => (i, { state := .ready, keepMemory := true }) } : State).keepers = 8
    ∧ (∀ h, h < 16 → EmptyRegion (commanded (creates 0x8001 [])) h) := by
  refine ⟨fun k h => ?_, by decide +kernel, by decide +kernel, by decide +kernel, by decide +kernel, by decide +kernel, by decide +kernel, by decide +kernel, ?_⟩
  · simp only [List.mem_cons, List.not_mem_nil, or_false] at h
    rcases h with rfl | rfl | rfl <;>
      exact ⟨room_of _ (by decide +kernel), by decide +kernel, performs_of _ _ _ _ _ (by decide +kernel), 9, by decide +kernel⟩
  · unfold EmptyRegion; decide +kernel
/-- The code and the results of the one completion written, over its two writes. -/
def codeOf (o : Host.Outcome State Fault Refusal) : Option (List Nat) :=
  then_ o fun t =>
    let b := t.out.flatMap fun x => match x with | .completion _ _ _ b => b | _ => []
    [leField b 28 2, leField b 8 8, leField b 16 8]
theorem witness_destroy :
    let k := cmd 0x11 1 []
    let s := forCtx k { state := .ready }
    let t : State := { forCtx k { state := .running } with halls := [(15, { holder := some 1 })] }
    let b : State := { s with rings := (7, { state := .enabled, bound := some 1 }) :: s.rings }
    (b.ring 0).cmds = [k] ∧ (b.ring 7).bound = some k.ctx ∧ Performs s 0 0 0x11 k ∧ Performs t 0 0 0x11 k ∧ (s.ctx k.ctx).state ≠ .free ∧ s.heldBy k.ctx = [] ∧ t.heldBy k.ctx ≠ []
    ∧ (t.ctx k.ctx).state ≠ .suspect :=
  ⟨by decide +kernel, by decide +kernel, performs_of _ _ _ _ _ (by decide +kernel), performs_of _ _ _ _ _ (by decide +kernel),
    by decide +kernel, by decide +kernel, by decide +kernel, by decide +kernel⟩

theorem witness_ranges :
    let make (n region : Nat) := cmd 0x12 1 [(16, n), (20, region), (21, 3)]
    let ready : Ctx := { state := .ready, epoch := 65535 }
    let full : Ctx := { state := .ready, ranges := List.replicate 64 ⟨0, 1, 1, true, true⟩ }
    (∀ k ∈ [make 1 0, make 0xFFE00 15, make 1 15], ∀ x ∈ [ready, full],
      Room ((forCtx k x).ring 0) ∧ (forCtx k x).ringFn 0 = 0 ∧ Performs (forCtx k x) 0 0 0x12 k ∧ ((forCtx k x).ctx k.ctx).state.takesWork = true)
    ∧ up.regionOnline 15 = false ∧ (forCtx (make 1 15) full).regionOnline 15 = true ∧ 64 ≤ full.ranges.length
    ∧ (make 0xFFE00 15).at_ 16 4 = 0xFFE00 ∧ (make 0xFFE00 15).at_ 20 1 = 15
    ∧ (forCtx (make 0xFFE00 15) ready).runFree (2 ^ 20 * 15) 0xFFE00 = true := by
  refine ⟨fun k hk x hx => ?_, by decide +kernel, by decide +kernel, by decide +kernel, by decide +kernel, by decide +kernel, by decide +kernel⟩
  simp only [List.mem_cons, List.not_mem_nil, or_false] at hk hx
  rcases hk with rfl | rfl | rfl <;> rcases hx with rfl | rfl <;>
    exact ⟨room_of _ (by decide +kernel), by decide +kernel, performs_of _ _ _ _ _ (by decide +kernel), by decide +kernel⟩
theorem test_range_create_region_offline :
    codeOf (exec (.rangeCreate 0 0) { forCtx (cmd 0x12 1 [(16, 2), (20, 3)]) { state := .ready } with regs := up.regs }) = some [0x0622, 0, 0] := by
  decide +kernel
theorem witness_range_changes :
    let x : Ctx := { state := .ready, ranges := [⟨16, 2, 1, true, true⟩] }
    let drop (a : Nat) := cmd 0x13 1 [(16, a)]
    let s (a : Nat) := forCtx (drop a) x
    let t : State := { s (65536 * 16) with halls := [(0, { holder := some 1 })] }
    Performs (s 0) 0 0 0x13 (drop 0) ∧ Performs (s (65536 * 16)) 0 0 0x13 (drop (65536 * 16)) ∧ Performs t 0 0 0x13 (drop (65536 * 16))
    ∧ x.ranges.find? (fun r => 65536 * r.base == (drop 0).at_ 16 8) = none
    ∧ x.ranges.find? (fun r => 65536 * r.base == (drop (65536 * 16)).at_ 16 8) = some ⟨16, 2, 1, true, true⟩
    ∧ x.holdsImage ⟨16, 2, 1, true, true⟩ = false ∧ (s 0).heldBy 1 = [] ∧ t.heldBy 1 ≠ [] :=
  ⟨performs_of _ _ _ _ _ (by decide +kernel), performs_of _ _ _ _ _ (by decide +kernel), performs_of _ _ _ _ _ (by decide +kernel),
    by decide +kernel, by decide +kernel, by decide +kernel, by decide +kernel, by decide +kernel⟩
theorem witness_hall_set :
    let set (m : Nat) := cmd 0x14 1 [(16, m), (24, 100)]
    let x : Ctx := { state := .ready, reserves := [⟨0, 5, 6⟩, ⟨15, 7, 8⟩] }
    let s (m : Nat) := forCtx (set m) x
    Performs (s 0) 0 0 0x14 (set 0) ∧ Performs (s 0x8001) 0 0 0x14 (set 0x8001) ∧ x.state ≠ .suspect
    ∧ (s 0).maskOk ((set 0).at_ 16 2) = false ∧ (s 0x8001).maskOk ((set 0x8001).at_ 16 2) = true
    ∧ ∀ h, h < 16 → bit ((set 0x8001).at_ 16 2) h = true → ∃ r ∈ x.reserves, r.hall = h :=
  ⟨performs_of _ _ _ _ _ (by decide +kernel), performs_of _ _ _ _ _ (by decide +kernel),
    by decide +kernel, by decide +kernel, by decide +kernel, by decide +kernel⟩
theorem witness_fence :
    let fence (e : Nat) := cmd 0x22 1 [(16, e), (24, 100)]
    let x : Ctx := { state := .ready, epoch := 65535 }
    let s (e : Nat) := forCtx (fence e) x
    Performs (s 0) 0 0 0x22 (fence 0) ∧ Performs (s 1) 0 0 0x22 (fence 1) ∧ (fence 0).at_ 16 2 = (x.epoch + 1) % 65536
    ∧ (fence 1).at_ 16 2 ≠ (x.epoch + 1) % 65536 ∧ ∀ r ∈ x.reqs, ∀ e, r.kind ≠ .fence e :=
  ⟨performs_of _ _ _ _ _ (by decide +kernel), performs_of _ _ _ _ _ (by decide +kernel),
    by decide +kernel, by decide +kernel, fun r h => by simp at h⟩
theorem witness_detach_export :
    ∀ op ∈ [0x16, 0x17], ∀ st ∈ [CtxState.ready, .running, .preempted, .loading],
      let k := cmd op 1 [(16, 1), (18, 9), (24, 4096), (32, 8192), (40, 3)]
      let s := forCtx k { state := st }
      Performs s 0 0 op k ∧ (s.ctx k.ctx).state.takesWork = true := by
  intro op ho st hs
  simp only [List.mem_cons, List.not_mem_nil, or_false] at ho hs
  rcases ho with rfl | rfl <;> rcases hs with rfl | rfl | rfl | rfl <;>
    exact ⟨performs_of _ _ _ _ _ (by decide +kernel), by decide +kernel⟩

/-! ### Copies, kernels and packages -/

/-- HBM channels 0, 1 and 240 in service. -/
def served (s : State) : State := { s with regs := s.regs ++ [0, 1, 240].map fun c => (Reg.MEM_CH_STATUS c, 2) }
theorem access_of (s : State) (a n : Nat) (h : (decide (a + n ≤ 2 ^ 40) && (List.range n).all fun i =>
    s.chState (channelOf (a + i)) == 2 && !reservedPage ((a + i) / 65536)) = true) : PfMayAccess s a n := by
  simp only [Bool.and_eq_true, List.all_eq_true, List.mem_range, decide_eq_true_eq, beq_iff_eq, Bool.not_eq_true'] at h
  refine ⟨h.1, fun b h1 h2 => ?_⟩
  have := h.2 (b - a) (by omega)
  rwa [Nat.add_sub_cancel' h1] at this
theorem witness_copy :
    ∀ dir ∈ [0, 1], ∀ a ∈ [0, 2 ^ 40 - 0x2000000 - 4],
      let k := cmd 0x18 0 [(16, dir), (24, 4096), (32, a), (40, 4)]
      let s := served (commanded k)
      Room (s.ring 0) ∧ s.ringFn 0 = 0 ∧ Performs s 0 0 0x18 k ∧ PfMayAccess s (k.at_ 32 8) (k.at_ 40 8) ∧ NoErrors s
      ∧ bit (k.at_ 16 1) 0 = decide (dir = 1) ∧ ([1, 2, 3, 4] : List Byte).length = k.at_ 40 8 := by
  unfold NoErrors
  intro dir ht a ha
  simp only [List.mem_cons, List.not_mem_nil, or_false] at ht ha
  rcases ht with rfl | rfl <;> rcases ha with rfl | rfl <;>
    exact ⟨room_of _ (by decide +kernel), by decide +kernel, performs_of _ _ _ _ _ (by decide +kernel), access_of _ _ _ (by decide +kernel),
      by decide +kernel, by decide +kernel, by decide +kernel⟩
theorem test_copy_to_host :
    (let s := served { commanded (cmd 0x18 0 [(24, 4096), (32, 8), (40, 2)]) with mem := { cells := [(9, 7)] } }
     then_ (exec (.copy 0 0 (.data [])) s) fun t => t.out.take 1) = some [.hostWrite 4096 [0, 7]] := by decide +kernel
/-- An image of one program of one word for one hall, at 1 MiB. -/
def kernelImage : List Host.Cell :=
  [(0x100000, 0x55), (0x100001, 0x4B), (0x100002, 0x52), (0x100003, 0x4E), (0x100004, 1), (0x100006, 1), (0x100007, 1), (0x100080, 0xFC), (0x100081, 1), (0x100084, 1)]
theorem witness_submit :
    let k := cmd 0x20 1 [(16, 0x100000), (24, 512), (28, 5)]
    let kn : Kernel := ⟨⟨0, 5⟩, 0, 512, 0, 0, 0, false, 0, false, [], false⟩
    let x : Ctx := { state := .ready, named := 2, ranges := [⟨16, 1, 1, true, false⟩] }
    let s : State := { served (forCtx k x) with mem := { cells := kernelImage } }
    Room (s.ring 0) ∧ s.ringFn 0 = 0 ∧ Performs s 0 0 0x20 k ∧ x.state.takesWork = true ∧ x.submitted = none ∧ (∀ m ∈ x.models, m.2.evicted = none)
    ∧ (∃ r, x.rangeAt (k.at_ 16 8) (k.at_ 24 4) = some r ∧ r.kind = 1 ∧ r.rd = true) ∧ PfMayAccess s (k.at_ 16 8) (k.at_ 24 4) ∧ NoErrors s
    ∧ imageOk (s.bytesAt (k.at_ 16 8) (k.at_ 24 4)) x.hallList.length = true ∧ liveOk (imageLive (s.bytesAt (k.at_ 16 8) (k.at_ 24 4))) = true
    ∧ Performs (forCtx k { x with submitted := some kn }) 0 0 0x20 k :=
  ⟨room_of _ (by decide +kernel), by decide +kernel, performs_of _ _ _ _ _ (by decide +kernel), rfl, rfl, by decide,
    ⟨⟨16, 1, 1, true, false⟩, by decide +kernel, rfl, rfl⟩, access_of _ _ _ (by decide +kernel), rfl, by decide +kernel, by decide +kernel, performs_of _ _ _ _ _ (by decide +kernel)⟩
/-- A package of one hall whose one record saves no live bytes. -/
def package : List Byte :=
  let head := leBytes 4 0x43585242 ++ [1, 0, 1, 2] ++ leBytes 2 9 ++ leBytes 2 4 ++ [1, 0] ++ List.replicate 50 0
  let rec_ : List Byte := [4, 0, 0, 0, 1, 0, 0, 0] ++ List.replicate 24 0 ++ sha256 []
  head ++ sha256 (head ++ rec_) ++ List.replicate 32 0 ++ rec_
theorem witness_attach :
    let k := cmd 0x15 0 [(24, 192), (32, 8192), (40, 15)]
    let s := commanded k
    let recs := pkgRecords package
    Room (s.ring 0) ∧ s.ringFn 0 = 0 ∧ Performs s 0 0 0x15 k ∧ ([] : List Byte).length < 128
    ∧ packageOk package (packagePool package) = true ∧ ((List.range (leField package 6 1)).map fun i => bits (k.at_ 40 8) (4 * i + 3) (4 * i)).Nodup
    ∧ bit (leField package 7 1) 7 = false ∧ package.length = k.at_ 24 8
    ∧ (package.drop 64).take 32 = sha256 (package.take 64 ++ recs.flatten)
    ∧ (∀ e ∈ recs.zip (contentsFrom package recs (128 + 64 * leField package 12 2)), e.1.drop 32 = sha256 e.2)
    ∧ ∃ c, c < 4096 ∧ (s.ctx c).state = .free :=
  ⟨room_of _ (by decide +kernel), by decide +kernel, performs_of _ _ _ _ _ (by decide +kernel), by decide, by decide +kernel, by decide +kernel,
    by decide +kernel, by decide +kernel, by decide +kernel, by decide +kernel, 0, by decide +kernel⟩
/-- The first bytes of the SHA-256 of the message "abc" (FIPS 180-4). -/
theorem test_sha : (sha256 [0x61, 0x62, 0x63]).take 4 = [0xBA, 0x78, 0x16, 0xBF] := by decide +kernel
theorem test_attach_refuses_short_package :
    codeOf (exec (.attach 0 0 (.data [] true)) (commanded (cmd 0x15 0 []))) = some [0x0641, 0, 0] := by decide +kernel
theorem witness_package_written :
    let k := cmd 0x17 1 []
    let p : PkgWrite := { cmd := ⟨0, 5⟩, isExport := true, garrid := false, peer := 0, dest := 0, destBytes := 0, frame := 9, bytes := 192, sent := true }
    let s := forCtx k { state := .ready, pkg := some p }
    (s.ctx 1).pkg = some p ∧ p.sent = true ∧ (s.ring p.cmd.ring).cmds.find? (fun y => y.id == p.cmd.id) = some k ∧ Room (s.ring p.cmd.ring) ∧ (s.ctx 0).pkg = none :=
  ⟨by decide +kernel, rfl, by decide +kernel, room_of _ (by decide +kernel), by decide +kernel⟩

/-! ### Registers -/

/-- Every register is at most 8 bytes wide. -/
def narrow (l : List RegRow) : Bool := l.all fun r => decide (r.width ≤ 8)
theorem narrow_if {p : Prop} [Decidable p] {l r : List RegRow} (hl : narrow l = true) (hr : narrow r = true) : narrow (if p then l else r) = true := by
  split <;> assumption
theorem blockRows_narrow (a : Nat) : narrow (blockRows a) = true := by
  unfold blockRows
  iterate 12 (refine narrow_if (by decide +kernel) ?_)
  rfl
theorem blockRows_width (a : Nat) (r : RegRow) (h : r ∈ blockRows a) : r.width ≤ 8 := by
  simpa using List.all_eq_true.1 (blockRows_narrow a) r h
/-- No register lies at 0x400000, between the host interface and the halls. -/
theorem no_register (n b : Nat) (r : RegRow) (hn : n ≤ 8) (h : regRow b = some r) : 0x400000 + n ≤ b ∨ b + r.width ≤ 0x400000 := by
  have hw := blockRows_width b r (List.mem_of_find?_eq_some h)
  by_cases h1 : b < 0x300000
  · omega
  · by_cases h2 : b < 0x1000000
    · have none : blockRows b = [] := by
        unfold blockRows
        rw [if_neg (by omega), if_neg (by omega), if_neg h1, if_pos h2]
      rw [regRow, none] at h
      cases h
    · omega
theorem witness_register_accesses :
    up.ready = true
    ∧ (regRow Reg.DEV_ID).map (fun r => r.access) = some .ro ∧ isMbox Reg.DEV_FEATURE_OFFER0 = false
    ∧ (regRow 0x1001104).map (fun r => (r.access, r.width)) = some (.rc, 4) ∧ isMbox 0x1001104 = false ∧ ownCount 0x1001104
    ∧ (regRow 0x3000030).map (fun r => (r.access, r.width)) = some (.rw1c, 4)
    ∧ (regRow Reg.HST_ADMIN_SQ).map (fun r => (r.access, r.width)) = some (.rw, 8) ∧ storesOnly Reg.HST_ADMIN_SQ
    ∧ (∃ r, regRow (Reg.MEM_TG_USER 255) = some r) ∧ storesOnly (Reg.MEM_TG_USER 255) ∧ storesOnly (Reg.HAL_NUMTRAP_CTRL 15)
    ∧ (Reg.HST_ADMIN_SQ ≤ (0x20000F : W32).toNat ∧ (0x20000F : W32).toNat < Reg.HST_ADMIN_SQ + 8)
    ∧ msixPlace 0 0x400000 = none ∧ (0x400000 : W32).toNat % 8 = 0
    ∧ (∀ b r, regRow b = some r → 0x400000 + 8 ≤ b ∨ b + r.width ≤ 0x400000)
    ∧ (up.pageRing 0 2 = some 2) := by
  refine ⟨by decide +kernel, by decide +kernel, by decide +kernel, by decide +kernel, by decide +kernel, ?_, by decide +kernel, by decide +kernel, ?_, ?_, ?_, ?_,
    by decide +kernel, by decide +kernel, by decide +kernel, fun b r h => no_register 8 b r (by omega) h, by decide +kernel⟩
  · exact ⟨by decide, by decide⟩
  · exact Or.inl (by decide)
  · exact Option.isSome_iff_exists.1 (by decide +kernel)
  · exact Or.inr (Or.inr ⟨255, by decide, by decide⟩)
  · exact Or.inr (Or.inl ⟨15, by decide, rfl⟩)
/-- No traffic generator runs where none has been started, and registers elsewhere belong to none. -/
theorem witness_no_run : NoRunAt up (Reg.MEM_TG_USER 255) ∧ NoRunAt up 0x1001104 := by
  unfold NoRunAt; decide +kernel
theorem test_read_clears : then_ (exec (.rcRead 0 0x1001104 0) (up.setReg 0x1001104 9)) (fun t => (t.out, t.reg 0x1001104)) = some ([.readData 0 0x1001104 9], 0) := by
  decide +kernel
theorem test_write_one_clears : then_ (exec (.rw1cWrite 0 0x3000030 5 1) (up.setReg 0x3000030 6)) (fun t => t.reg 0x3000030) = some 3 := by decide +kernel

/-! ### BAR4 and the memory unit -/

theorem witness_host_windows :
    let dv := served (up.setReg Reg.DEV_FEATURE_CTRL 1)
    let vf (n : Nat) : State :=
      { dv with pcie := { up.pcie with vfEnable := true, vfs := [(1, some ⟨16, 4, 1, 0, 1⟩)] }, ctxs := [(3, { state := .ready, fn := 1 })],
                mem := { pot := [⟨n, 1, BitVec.ofNat 64 (potWord true true 0 1 false false 3 0 n)⟩] } }
    NoErrors dv ∧ dv.bar4 0 = some (0, 2 ^ 36) ∧ dv.bar4 1 = none ∧ up.bar4 0 = none
    ∧ ((2 : Nat) ^ 40 < 2 ^ 40 - 2 ^ 36 + (2 ^ 36 - 1) + 4 ∧ (dv.setReg Reg.HST_BAR4_BASE (2 ^ 40)).bar4 0 = some (2 ^ 40, 2 ^ 36))
    ∧ PfMayAccess dv 0x100 4 ∧ (dv.chState (channelOf 0xFFE000004) = 2 ∧ reservedPage (0xFFE000004 / 65536) = true ∧ 0xFFE000004 + 4 ≤ 2 ^ 36)
    ∧ (vf 0).bar4 1 = some (0, 2 ^ 34) ∧ NoErrors (vf 0) ∧ PageOpen (vf 0) ((vf 0).ctxsOf 1) 0x100 true ∧ PageOpen (vf 0) ((vf 0).ctxsOf 1) 0x100 false
    ∧ (0x100 : Nat) / 256 = (0x100 + 256 - 1) / 256 := by
  unfold NoErrors PageOpen
  exact ⟨by decide +kernel, by decide +kernel, by decide +kernel, by decide +kernel, by decide +kernel, access_of _ _ _ (by decide +kernel), by decide +kernel,
    by decide +kernel, by decide +kernel, by decide +kernel, by decide +kernel, by decide⟩
def nine : State := { served (up.setReg Reg.DEV_FEATURE_CTRL 1) with mem := { cells := [(0x101, 9)] } }
theorem test_bar4_read : then_ (execBar4Read 0 0x100 2 nine) (fun t => t.out) = some [.bar4Data 0 0x100 [0, 9] false] := by decide +kernel
def scrubbed : State := (served up).setReg Reg.MEM_SCRUB_CTRL 256
theorem witness_scrub :
    (0x1F0 : W64).toNat / eccUnit (0x1F0 : W64).toNat * eccUnit (0x1F0 : W64).toNat = 0x1E0 ∧ scrubbed.scrubs 0x1E0 = true ∧ spaceOf 0x1E0 = 2
    ∧ scrubbed.scrubs 0 = true ∧ 0x1E0 < (0 : W64).toNat + (512 : W32).toNat ∧ scrubbed.mem.ecc = []
    ∧ bit (scrubbed.reg Reg.MEM_SCRUB_CTRL) 8 = true ∧ bit ((up.setReg Reg.MEM_SCRUB_CTRL 0).reg Reg.MEM_SCRUB_CTRL) 8 = false := by decide +kernel
/-- A device with HBM channel 0 in a state. -/
def channel (st : Nat) (l : List PotRun) : State := { up.setReg (Reg.MEM_CH_STATUS 0) st with mem := { pot := l } }
theorem witness_channels :
    (channel 1 []).chState 0 = 1 ∧ (channel 2 []).chState 0 = 2 ∧ (channel 3 []).chState 0 = 3 ∧ up.ready = true
    ∧ ¬ RegionOwned (channel 2 []) (0 / 16) ∧ RegionOwned (channel 2 [⟨0, 1, 0x8000000000000000⟩]) (0 / 16)
    ∧ (channel 2 [⟨0, 1, 0x8000000000000000⟩]).chState 0 = 2 := by unfold RegionOwned; decide +kernel
/-- The channel-test feature, not accepted and accepted. -/
theorem witness_channel_test_feature :
    let s : State := (channel 2 []).setReg Reg.DEV_FEATURE_CTRL 1 |>.setReg Reg.DEV_FEATURE_ACCEPT0 0x1000
    up.feature 12 = false ∧ s.feature 12 = true ∧ s.ready = true ∧ s.chState 0 = 2 ∧ ¬ RegionOwned s (0 / 16)
    ∧ ((channel 1 []).setReg Reg.DEV_FEATURE_CTRL 1 |>.setReg Reg.DEV_FEATURE_ACCEPT0 0x1000).chState 0 ≠ 2 := by unfold RegionOwned; decide +kernel
/-- A traffic generator that has been started over one burst. -/
def traffic (ctrl : Nat) : State :=
  { channel 3 [] with mem := { tg := [(0, some { ctrl := ctrl, seed := 1, user := 2, first := 64, last := 64, stride := 64, ops := 1, began := 0 })] } }
theorem witness_traffic :
    let v : W32 := 0x80000008
    ((channel 3 []).chState 0 = 3 ∧ mapGet none (channel 3 []).mem.tg 0 = none ∧ (channel 3 []).reg (Reg.MEM_TG_START 0) = 0
      ∧ (channel 3 []).reg (Reg.MEM_TG_END 0) % 64 = 0 ∧ (channel 3 []).reg (Reg.MEM_TG_END 0) ≤ 0xFFDFFFFF
      ∧ bits v.toNat 3 0 = 8 ∧ bit v.toNat 31 = true)
    ∧ (channel 2 []).chState 0 ≠ 3 ∧ bits (0x80000009 : W32).toNat 3 0 = 9
    ∧ (∀ c ∈ [0, 16, 17], ((mapGet none (traffic c).mem.tg 0).map fun r => (r.ops, bits r.ctrl 5 4, r.done, r.next, r.errs)) = some (1, c / 16, 0, 0, 0)
      ∧ ((mapGet none (traffic c).mem.tg 0).map fun r => r.mism.isSome) = some false)
    ∧ (0 < (1 : W64).toNat ∧ (1 : W64).toNat = 1) ∧ NoErrors (traffic 0)
    ∧ ((List.range 1).filter (burstDiffers (traffic 17) { ctrl := 17, seed := 1, user := 2, first := 64, last := 64, stride := 64, ops := 1, began := 0 } 0)).length ≠ 0 := by
  unfold NoErrors; decide +kernel
theorem witness_traffic_clean :
    ((List.range 1).filter (burstDiffers (traffic 16) { ctrl := 16, seed := 1, user := 2, first := 64, last := 64, stride := 64, ops := 1, began := 0 } 0)).length = 0 := by
  decide +kernel
theorem witness_pot_query : ({ up with mem := { potQuery := some 5 } } : State).mem.potQuery = some 5 ∧ up.mem.potQuery = none ∧ up.ready = true := by decide +kernel

/-! ### Models, shards and batches -/

/-- Image slot 0 of model 0 of context 1 with a version. -/
def versioned (v : Version) (x : Ctx) : Ctx := { x with models := [(0, v)] }
theorem witness_model_commands :
    let ready : Ctx := { state := .ready, named := 1, epoch := 65535, ranges := [⟨16, 1, 1, true, true⟩] }
    let v : Version := { state := .verified, pages := 1, base := 32 }
    (∀ k ∈ [cmd 0x30 1 [(24, 4096), (32, 180)], cmd 0x30 1 [(32, 65536 * 0xFFE00)], cmd 0x31 1 [(24, 4096), (32, 180), (40, 0x100000)],
        cmd 0x31 1 [(40, 0x10FFFF)], cmd 0x32 1 [(24, 9)], cmd 0x33 1 [], cmd 0x34 1 []],
      ∀ x ∈ [ready, versioned v ready, { ready with state := .faulted }],
      Room ((forCtx k x).ring 0) ∧ Performs (forCtx k x) 0 0 k.op k ∧ k.at_ 18 1 = 0 ∧ (forCtx k x).images < 256)
    ∧ ready.state.takesWork = true ∧ CtxState.takesWork .faulted = false ∧ ready.ranges.length < 64 ∧ ready.epoch < 65536
    ∧ HasRoom (forCtx (cmd 0x30 1 []) ready) ready ∧ (versioned v ready).ver 0 0 = v ∧ ready.ver 0 0 = {}
    ∧ max 1 (ceilDiv ((cmd 0x30 1 [(32, 65536 * 0xFFE00)]).at_ 32 8) 65536) = 0xFFE00
    ∧ (ready.rangeAt 0x10FFFF 1).map (·.kind) = some 1 ∧ ready.rangeAt 0x110000 1 = none := by
  refine ⟨fun k hk x hx => ?_, by decide +kernel, by decide +kernel, by decide +kernel, by decide +kernel, ⟨0, by decide, by decide, ?_⟩, by decide +kernel, by decide +kernel,
    by decide +kernel, by decide +kernel, by decide +kernel⟩
  · simp only [List.mem_cons, List.not_mem_nil, or_false] at hk hx
    rcases hk with rfl | rfl | rfl | rfl | rfl | rfl | rfl <;> rcases hx with rfl | rfl | rfl <;>
      exact ⟨room_of _ (by decide +kernel), performs_of _ _ _ _ _ (by decide +kernel), by decide +kernel, by decide +kernel⟩
  · unfold EmptyRegion; decide +kernel
theorem witness_cache_full :
    let busy : Version := { state := .active, pages := 1, base := 32 }
    let s : State := { forCtx (cmd 0x30 1 []) { state := .ready } with
      ctxs := (1, { state := .ready }) :: (List.range 8).map fun i => (2 + i, { state := .ready, models := (List.range 32).map fun m => (m, busy) }) }
    256 ≤ s.images ∧ s.feature featEvict = false ∧ ((s.ctx 1).ver 0 0).state = .retired := by decide +kernel
theorem witness_discard_restore :
    let v : Version := { state := .verified, pages := 1, base := 32, evicted := some 0, digest := sha256 (List.replicate 65536 0) }
    let x := versioned v { state := .ready, named := 1 }
    let bs : List Byte := List.replicate 65536 0
    v.state ∈ [VerState.staging, .verified, .quarantined] ∧ (∀ l ∈ x.loads, l.model = 0 → l.slot = 0 → l.toData ≠ none)
    ∧ v.evicted ≠ none ∧ 0 < v.pages ∧ v.pages ≤ 0xFFE00 ∧ bs.length = 65536 * v.pages ∧ sha256 bs = v.digest
    ∧ ∃ d, sha256 bs ≠ ({ v with digest := d } : Version).digest := by
  intro v x bs
  refine ⟨by simp [v], by simp [x, versioned], by simp [v], by simp [v], by simp [v], by simp only [bs, v, List.length_replicate], rfl, ?_⟩
  by_cases h : sha256 bs = []
  · exact ⟨[0], by rw [h]; simp⟩
  · exact ⟨[], h⟩
/-- A pool of two slots and its empty descriptors: one that changes nothing, and one with a join. -/
def pool : Pool := { base := 0, rowsMax := 1, seqMax := 2, setPages := 1, blockPos := 16, setsMax := 2, poolSets := 4 }
def descriptor (joins : Nat) (slot pos : Nat) : List Byte :=
  leBytes 8 0 ++ leBytes 2 1 ++ leBytes 2 0 ++ leBytes 2 0 ++ leBytes 2 joins ++ List.replicate 16 0
    ++ (List.range joins).flatMap fun _ => leBytes 2 slot ++ [0, 0] ++ leBytes 4 pos ++ leBytes 8 7
theorem witness_batches :
    let k := cmd 0x21 1 [(16, 0x100000)]
    let dev := cmd 0x21 1 [(16, 0x100000), (24, 1)]
    let b : Batch := ⟨⟨0, 6⟩, 0, 0, false, false, [], [], [], [], false, false⟩
    let x (p : Option Pool) : Ctx := { state := .ready, pool := p }
    Performs (forCtx k (x (some pool))) 0 0 0x21 k ∧ DescIs (forCtx k (x (some pool))) 0 k (.data (descriptor 1 1 15)) (descriptor 1 1 15)
    ∧ bits (leField (descriptor 1 1 15) 8 2) 11 0 = k.ctx ∧ batchOk pool (descriptor 1 1 15) = true ∧ batchOk pool (descriptor 1 0xFFFF 0) = true
    ∧ batchOk pool (descriptor 1 1 16) = false ∧ batchOk pool (descriptor 1 2 0) = false ∧ pool.batch = none ∧ ({ pool with batch := some b } : Pool).batch ≠ none
    ∧ DescIs { served (forCtx dev (x none)) with mem := { cells := [(0x100008, 1)] } } 0 dev .failed (descriptor 0 0 0) := by
  refine ⟨performs_of _ _ _ _ _ (by decide +kernel), Or.inl ⟨by decide +kernel, rfl⟩, by decide +kernel, by decide +kernel, by decide +kernel, by decide +kernel,
    by decide +kernel, rfl, by decide, Or.inr ⟨by decide +kernel, by decide +kernel, rfl, access_of _ _ _ (by decide +kernel), access_of _ _ _ (by decide +kernel), by decide +kernel⟩⟩
/-- A package of one shard of one INT8 element, the value 9 at image offset 3. -/
def shard : List Byte :=
  let head := leBytes 4 0x48585242 ++ [1, 0, 128, 0] ++ leBytes 8 5 ++ leBytes 4 6 ++ [0, 0, 1, 0, 1, 0] ++ List.replicate 14 0 ++ leBytes 8 65536 ++ leBytes 8 177
    ++ List.replicate 8 0
  let rest := List.replicate 32 0 ++ leBytes 8 176 ++ leBytes 8 1 ++ leBytes 8 3 ++ [4, 4, 0, 0, 0, 0, 0, 0, 1, 0, 0, 0, 1, 0, 0, 0] ++ List.replicate 8 0 ++ [9]
  head ++ sha256 (head ++ rest) ++ rest
theorem witness_shards :
    let k : Cmd := { cmd 0x30 1 [(32, 177)] with started := true }
    let l (r n : Nat) (d : Option Nat) : Load := { cmd := ⟨0, 5⟩, model := 0, slot := 0, toData := d, pin := false, mez := none, garrid := false, peer := 0, src := 4096, bytes := n, staging := 64, retries := r, began := 0 }
    let v : Version := { state := .staging, base := 32, pages := 1, modelId := 5, version := 6, shards := 1, imageBytes := 65536 }
    let x (l : Load) : Ctx := { state := .ready, models := [(0, v)], loads := [l], ranges := [⟨16, 1, 1, true, true⟩] }
    (∀ y ∈ [l 0 177 none, l 2 0 none, l 3 0 (some 0x100000), l 0 177 (some 0x10FFFC)],
      Room ((forCtx k (x y)).ring 0) ∧ Loading (forCtx k (x y)) 0 0 k 1 y)
    ∧ (shard.length = 177 ∧ brixahDigestOk shard = true ∧ brixahHeaderOk shard = true ∧ brixahUsesZstd shard = false)
    ∧ brixahDigestOk [] = false ∧ ([] : List Byte).length = 0
    ∧ (x (l 0 177 (some 0x10FFFC))).rangeAt 0x10FFFC 1 = some ⟨16, 1, 1, true, true⟩
    ∧ brixahWrites shard (leField shard 32 8) (min (leField shard 40 8) (65536 * 17 - 0x10FFFC)) 0 = some [(3, .inl [9])]
    ∧ ((x (l 0 177 none)).ver 0 0 = v ∧ v.pages ≠ 0 ∧ v.modelId = leField shard 8 8 ∧ v.version = leField shard 16 4 ∧ v.shards = leField shard 22 2
      ∧ v.imageBytes = leField shard 40 8 ∧ leField shard 20 2 ∉ v.verified ∧ v.verified.length + 1 = v.shards)
    ∧ brixahWrites shard (leField shard 32 8) v.imageBytes 0 = some [(3, .inl [9])]
    ∧ ({ v with modelId := 1 } : Version).modelId ≠ leField shard 8 8 := by
  refine ⟨fun y hy => ?_, by decide +kernel, by decide +kernel, rfl, by decide +kernel, by decide +kernel, by decide +kernel, by decide +kernel, by decide +kernel⟩
  simp only [List.mem_cons, List.not_mem_nil, or_false] at hy
  unfold Loading
  rcases hy with rfl | rfl | rfl | rfl <;> exact ⟨room_of _ (by decide +kernel), by decide +kernel⟩
theorem witness_header_refused : brixahDigestOk (sha256 []) = false ∧ ∃ bs : List Byte, brixahDigestOk bs = true ∧ brixahHeaderOk bs = false := by
  refine ⟨by decide +kernel, List.replicate 64 0 ++ sha256 (List.replicate 96 0) ++ List.replicate 32 0, by decide +kernel, by decide +kernel⟩
theorem witness_recheck :
    let v : Version := { state := .active, base := 32, pages := 0 }
    let s := forCtx (cmd 1 0 []) (versioned v { state := .ready })
    bit ((s.setReg Reg.CTX_RECHECK 256).reg Reg.CTX_RECHECK) 8 = true ∧ bit ((up.setReg Reg.CTX_RECHECK 0).reg Reg.CTX_RECHECK) 8 = false
    ∧ (s.ctx 1).ver 0 0 = v ∧ v.evicted = none ∧ v.state ∈ [VerState.verified, .active, .draining]
    ∧ sha256 (s.bytesAt (65536 * v.base) (65536 * v.pages)) ≠ v.digest ∧ v.recheckFailed = none := by decide +kernel

/-! ### Fault events and SMBus -/

theorem witness_fault_classes :
    up.power.good = true ∧ (0x5F : BitVec 7).toNat < 0x60 ∧ (0x29 : BitVec 7).toNat = 0x29 ∧ hallOf 79 49 = 15 ∧ hallOf 0 0 = 0
    ∧ (∀ h, h < 16 → up.inStep h = false)
    ∧ (srcBase 0x11 < 3 ∧ bit (up.reg (Reg.FLT_SRC_CFG 0x11)) 31 = true) ∧ (srcBase 0 < 4 ∧ bit (up.reg (Reg.FLT_SRC_CFG 0)) 31 = false)
    ∧ (srcBase 0 = 3 ∧ srcTagged 0 = true) ∧ (srcBase 0x1C = 3 ∧ srcTagged 0x1C = false ∧ srcHall 0x1C = true ∧ (up.hall 15).replay = none)
    ∧ (srcBase 0x4D = 4 ∧ (0x4D : Nat) ≠ 0x54 ∧ (0x4D : Nat) ≠ 0x55)
    ∧ (bit (up.reg (Reg.FLT_SRC_CFG 0)) 30 = false ∧ bit ((up.setReg (Reg.FLT_SRC_CFG 0) (2 ^ 30)).reg (Reg.FLT_SRC_CFG 0)) 30 = true)
    ∧ bit (up.reg (latchReg { src := 0 })) 63 = false ∧ bit ((up.setReg (latchReg { src := 0 }) (2 ^ 63)).reg (latchReg { src := 0 })) 63 = true
    ∧ (srcBase 0x1B < bits ((up.setReg Reg.FLT_CTRL 1).reg Reg.FLT_CTRL) 2 0) := by decide +kernel
theorem witness_escalation :
    let s : State := { up with srcWin := [(16 * 0x31, (255, 0))] }
    let w := mapGet (0, 0) s.srcWin (16 * 0x31)
    w.1 ≠ 0 ∧ s.monoNs - w.2 < 1000000 * bits (s.reg (Reg.FLT_SRC_CFG 0x31)) 21 0 ∧ bits (s.reg (Reg.FLT_SRC_CFG 0x31)) 29 22 ≤ w.1
    ∧ srcHall 0x31 = false := by decide +kernel
theorem witness_tagged_fault : ((forCtx (cmd 1 0 []) { state := .running }).ctx 1).state ∉ [CtxState.free, .faulted, .detached]
    ∧ NoReplay (forCtx (cmd 1 0 []) { state := .running }) 1 :=
  ⟨by decide +kernel, fun h _ r e => nomatch (show (none : Option Replay) = some r from e)⟩
theorem witness_quarantine :
    let s : State := { up with halls := [(15, { slots := [(27 * 9 + 26, 2)], dropTimes := [(27 * 9 + 26, 0)] })] }
    (s.hall 15).slotState 9 26 ≠ 0 ∧ (159 : BitVec 8).toNat / 10 = 15 ∧ (159 : BitVec 8).toNat % 10 = 9
    ∧ (∃ e ∈ (s.hall 15).dropTimes, e.1 = 27 * 9 + 26 ∧ s.monoNs < e.2 + 1000000000) ∧ (s.hall 0).slotState 0 0 = 0
    ∧ (let t : State := { s with clk := { mono := 7 * 65536 * 1000000000 } }
       ∀ e ∈ (t.hall 15).dropTimes, e.1 = 27 * 9 + 26 → e.2 + 1000000000 ≤ t.monoNs) := by decide +kernel
theorem witness_smbus :
    let s := up.setFld Reg.SEC_STATUS 2 0 1
    s.power.good = true ∧ 1 ≤ s.fld Reg.SEC_STATUS 2 0 ∧ s.fld Reg.SEC_STATUS 2 0 ≤ 3 ∧ s.power.alert = false ∧ (29 : BitVec 5).toNat ≤ 29 ∧ 29 < (30 : BitVec 5).toNat
    ∧ (33 : BitVec 6).toNat ≤ 33 ∧ 33 < (34 : BitVec 6).toNat ∧ ({ s with power := { s.power with alert := true } } : State).power.alert = true
    ∧ ¬ (1 ≤ up.fld Reg.SEC_STATUS 2 0) := by decide +kernel
theorem test_status : then_ (execStatus (up.setFld Reg.SEC_STATUS 2 0 3)) (fun t => t.out.length) = some 1 := by decide +kernel

/-! ### Ports and links -/

/-- Port 0 with its feature set locked, a passive cable and a device number. -/
def cabled : State :=
  { ((up.setReg Reg.DEV_FEATURE_CTRL 1).setReg Reg.GAR_DEVICE_ID 5) with cables := [(0, { present := true, vcbl := true })] }
/-- Port 0 in a state, with all lanes active. -/
def portIn (st : Nat) (q : Port) : State := { (cabled.setReg (Reg.GAR_PORT_STATUS 0) (0xF00 + st)) with ports := [(0, q)] }
theorem witness_port_control :
    up.ready = true ∧ bit (up.reg (Reg.GAR_PORT_CTRL 0)) 31 = false ∧ LinkSet cabled 0 ∧ ¬ LinkSet up 0
    ∧ (mapGet ({} : Cable) cabled.cables (0 / 4)).kind ≠ 2 ∧ cabled.ready = true
    ∧ (let s := (portIn 3 {}).setReg (Reg.GAR_PORT_CTRL 0) (2 ^ 31); bit (s.reg (Reg.GAR_PORT_CTRL 0)) 31 = true ∧ s.portUp 0 = true)
    ∧ (let s := (portIn 1 {}).setReg (Reg.GAR_PORT_CTRL 0) (2 ^ 31); bit (s.reg (Reg.GAR_PORT_CTRL 0)) 31 = true ∧ s.portUp 0 = false)
    ∧ (15 : PortId).toNat = 15 := by unfold LinkSet; decide +kernel
theorem witness_training :
    let s (d : Bool) (last : Nat) : State := { portIn 2 { ident := some (15, true), lastLanes := last } with regs := (portIn 2 {}).regs ++ if d then [(Reg.DEV_FEATURE_ACCEPT0, 0xC00)] else [] }
    let own (u : BitVec 4) : Nat := u.toNat &&& (15 - (s true 0).fld (Reg.GAR_PORT_STATUS 0) 7 4)
    ((s true 0).portState 0 = 2 ∧ ((s true 0).port 0).ident = some (15, true) ∧ (bitsOf (own 15 &&& 15) 4).length = 4 ∧ ((s true 0).port 0).lastLanes ≤ 4)
    ∧ ((bitsOf (own 5 &&& 15) 4).length = 2 ∧ (s true 4).feature featDegrade = true ∧ 2 < ((s true 4).port 0).lastLanes)
    ∧ ((bitsOf (own 1 &&& 15) 4).length = 1 ∧ (s false 0).feature featDegrade = false)
    ∧ (s true 0).portState 0 ≠ 1 ∧ (portIn 1 {}).portState 0 = 1 := by decide +kernel
theorem witness_retry :
    let s (n : Nat) := (portIn 1 { attempts := n }).setReg (Reg.GAR_PORT_CTRL 0) (2 ^ 31 + 3)
    (s 3).portState 0 = 1 ∧ (s 3).fld (Reg.GAR_PORT_CTRL 0) 3 0 ≤ ((s 3).port 0).attempts ∧ ((s 2).port 0).attempts < (s 2).fld (Reg.GAR_PORT_CTRL 0) 3 0
    ∧ LinkSet (s 2) 0 ∧ bit ((s 2).reg (Reg.GAR_PORT_CTRL 0)) 31 = true ∧ (mapGet ({} : Cable) (s 2).cables (0 / 4)).kind ≠ 2 := by
  unfold LinkSet; decide +kernel
theorem witness_lanes :
    ((portIn 4 {}).portUp 0 = true ∧ bit ((portIn 4 {}).fld (Reg.GAR_PORT_STATUS 0) 11 8) (3 : BitVec 2).toNat = true) ∧ (portIn 2 {}).portUp 0 = false := by decide +kernel
theorem witness_port_registers :
    (bits (5 : W32).toNat 15 0 ≠ 0xFFFF ∧ (∀ p, p < 16 → up.portState p ≠ 2 ∧ up.portUp p = false)) ∧ bits (0xFFFF : W32).toNat 15 0 = 0xFFFF
    ∧ ¬ (∀ p, p < 16 → (portIn 3 {}).portState p ≠ 2 ∧ (portIn 3 {}).portUp p = false)
    ∧ (bits (0x80000000 : W32).toNat 31 30 = 2 ∧ ∀ p, p < 16 → p ≠ 0 → up.ptpRole p ≠ 2) ∧ (∀ p, p < 16 → p ≠ 0 → up.ptpRole p = 0)
    ∧ bits (0xC0000000 : W32).toNat 31 30 = 3
    ∧ (let s := up.setReg (Reg.GAR_PORT_PTP 1) 0x80000000; s.ptpRole 1 = 2 ∧ ¬ (∀ p, p < 16 → p ≠ 0 → s.ptpRole p ≠ 2) ∧ s.feature featPtp = false)
    ∧ bit ((portIn 3 { scan := 8 }).port 0).scan (3 : BitVec 2).toNat = true ∧ bit (up.port 0).scan (3 : BitVec 2).toNat = false := by decide +kernel
theorem test_route_write : then_ (exec (.routeWrite 0xFFFF 0xFFFFFFFF) up) (fun t => t.reg (Reg.GAR_ROUTE 0xFFFF)) = some 0xC00000FF := by decide +kernel
theorem witness_link_slots :
    let q : Port := { seqNext := 65540, acked := 65530, askedBy := (0, 0), replay := [(65535, pkt .ack), (65536, pkt .nack)] }
    let asks (q : Port) (n : Nat) : Nat := if q.asked.1 = n then q.asked.2 + 1 else 1
    (portIn 3 q).portUp 0 = true ∧ q.rxWait = none ∧ asks q 9 < 8 ∧ 8 ≤ asks { q with asked := (9, 7) } 9
    ∧ ({ q with rxWait := some 9 } : Port).rxWait = some (9 : W16).toNat ∧ ({ q with rxWait := some 9 } : Port).rxWait ≠ some (8 : W16).toNat
    ∧ fullSeq q.acked (65535 : W16).toNat < q.seqNext ∧ q.seqNext ≤ fullSeq q.acked (65529 : W16).toNat
    ∧ (if q.askedBy.1 = 65535 then q.askedBy.2 + 1 else 1) < 8 ∧ 8 ≤ (let q : Port := { q with askedBy := (65535, 7) }; if q.askedBy.1 = 65535 then q.askedBy.2 + 1 else 1)
    ∧ q.waiting = [] ∧ fullSeq q.acked (4 : W16).toNat ≤ q.seqNext ∧ q.seqNext < fullSeq q.acked (5 : W16).toNat
    ∧ (portIn 2 {}).portState 0 = 2 ∧ (6 : W16).toNat ≠ cabled.deviceId ∧ (5 : W16).toNat = cabled.deviceId := by decide +kernel
/-- A packet for this device from device 9. -/
def toDevice (t : PacketType) (s : State) (a : W64) (n : W32) (data : List Byte) : Packet :=
  { type := t, ddev := BitVec.ofNat 16 s.deviceId, dst := ⟨0, 0⟩, sdev := 9, src := ⟨0, 0⟩, xfer := 3, dest := a, bytes := n, data := data }
def arriving (s : State) (p : Packet) : State := { s with flight := [p] }
theorem witness_bulk :
    let ctx : Ctx := { state := .ready, ranges := [⟨16, 1, 1, true, true⟩] }
    let s : State := { up.setReg Reg.GAR_BULK_CTRL (2 ^ 31 + 2 ^ 30 + 2 ^ 12 + 1) with ctxs := [(1, ctx)] }
    let l : Load := { cmd := ⟨0, 5⟩, model := 0, slot := 0, toData := none, pin := false, mez := none, garrid := true, peer := 9, src := 0, bytes := 8, staging := 32, began := 0, xfer := 3 }
    let read := toDevice .bulkRead s 0x100000 4097 []
    let data := toDevice .bulkData s 0x10FFFE 0 [1, 2]
    ArrivesAtDevice (arriving s read) none read { arriving s read with flight := (arriving s read).flight.erase read }
    ∧ ArrivesAtDevice (arriving s data) none data { arriving s data with flight := (arriving s data).flight.erase data }
    ∧ read.type = .bulkRead ∧ data.type = .bulkData ∧ read.bytes.toNat ≤ 0x100000 ∧ s.fld Reg.GAR_BULK_CTRL 23 12 = 1 ∧ s.fld Reg.GAR_BULK_CTRL 11 0 = 1
    ∧ Admits s 31 1 0x100000 4097 (·.rd) ∧ Admits s 30 1 0x10FFFE 2 (·.wr) ∧ ¬ Admits up 31 1 0x100000 4097 (·.rd) ∧ ¬ Admits s 30 1 0x10FFFF 2 (·.wr)
    ∧ s.loadFor data = none ∧ NoErrors s
    ∧ DataFor { s with ctxs := [(1, { ctx with loads := [l] })] } (toDevice .bulkData s 0 0 [1, 2]) 1 l ∧ (6 : Nat) + 2 ≤ l.bytes := by
  refine ⟨⟨by decide, rfl⟩, ⟨by decide, rfl⟩, rfl, rfl, by decide, by decide +kernel, by decide +kernel,
    ⟨by decide +kernel, by decide +kernel, ⟨16, 1, 1, true, true⟩, by decide +kernel, rfl⟩, ⟨by decide +kernel, by decide +kernel, ⟨16, 1, 1, true, true⟩, by decide +kernel, rfl⟩,
    fun h => absurd h.1 (by decide +kernel), fun ⟨_, _, r, h, _⟩ => ?_, by decide +kernel, rfl, ⟨by decide +kernel, by decide +kernel, by decide +kernel⟩, by decide⟩
  rw [show (_ : Ctx).rangeAt 0x10FFFF 2 = none from by decide +kernel] at h
  cases h

/-! ### Precision time -/

theorem witness_ptp :
    let m (t : BitVec 4) : PtpMsg := { type := t, seq := 7, sec := 1, ns := 2 }
    let s (role : Nat) (q : Port) : State := (portIn 3 q).setReg (Reg.GAR_PORT_PTP 0) (2 ^ 30 * role)
    up.portUp 0 = false ∧ (s 1 {}).portUp 0 = true ∧ (s 1 {}).ptpRole 0 = 1 ∧ (s 2 {}).ptpRole 0 = 2
    ∧ (∀ t ∈ [(0 : BitVec 4), 1, 8, 9], (m t).type.toNat ∈ [0, 1, 8, 9] ∧ (m t).sdo = 0) ∧ (m 2).type.toNat ∉ [0, 1, 8, 9]
    ∧ ((s 1 {}).fld Reg.GAR_PTP_CFG 15 8 = 0 ∧ (m 0).domain.toNat = 0)
    ∧ ((s 2 { syncRx := some (7, 5) }).port 0).syncRx = some ((m 8).seq.toNat, 5) ∧ ((s 2 { syncRx := some (8, 5) }).port 0).syncRx = some (8, 5) ∧ (8 : Nat) ≠ (m 8).seq.toNat
    ∧ (s 2 {}).fld Reg.FTK_CTRL 6 5 = 0 ∧ ((s 2 {}).setReg Reg.FTK_CTRL 0x20).fld Reg.FTK_CTRL 6 5 = 1
    ∧ ((s 2 { delayTx := some (7, 3), path := some 4 }).port 0).delayTx = some ((m 9).seq.toNat, 3) := by decide +kernel
theorem witness_ptp_lock :
    let s (run : Nat) : State := { (portIn 3 { syncRx := some (7, 458752000000 * 1000) }).setReg (Reg.GAR_PORT_PTP 0) (2 ^ 31) |>.setReg Reg.FTK_CTRL 0x20 with
      clk := { up.clk with disc := .acquiring, loaded := true, lockRun := run } }
    (s 7).clk.loaded = true ∧ (s 7).clk.disc = .acquiring ∧ (s 7).fr.ticking = false ∧ 7 ≤ (s 7).clk.lockRun ∧ (s 6).clk.lockRun < 7
    ∧ ((458752000000 * 1000 : Int) - (unitsPerNs * (1000000000 * 0 + 1000) : Nat) - 0 - 0).natAbs ≤ unitsPerNs * (s 7).fld Reg.FTK_LOCK_NS 7 0 := by decide +kernel
/-- The counter is not loaded, and the first offset is one that steps it or one of at most 1 us. -/
theorem witness_ptp_unloaded :
    let s : State := { (portIn 3 { syncRx := some (7, 5) }).setReg (Reg.GAR_PORT_PTP 0) (2 ^ 31) |>.setReg Reg.FTK_CTRL 0x20 with clk := { up.clk with disc := .acquiring } }
    s.clk.loaded = false ∧ s.clk.disc = .acquiring ∧ s.fr.ticking = false ∧ s.fld Reg.FTK_CTRL 6 5 = 1 ∧ (s.port 0).syncRx = some (7, 5)
    ∧ 1000 * unitsPerNs < ((5 : Int) - (unitsPerNs * 1001 : Nat) - 0 - (s.port 0).delay).natAbs
    ∧ ((5 : Int) - (unitsPerNs * 1000 : Nat) - 0 - (s.port 0).delay).natAbs ≤ 1000 * unitsPerNs := by decide +kernel
theorem witness_ptp_lost :
    (∀ g, g < 16 → up.ptpRole g ≠ 2)
    ∧ (let s := up.setReg (Reg.GAR_PORT_PTP 15) 0x80000000; s.ptpRole 15 = 2 ∧ (∀ p, p < 15 → s.ptpRole p ≠ 2) ∧ s.fld Reg.FTK_CTRL 6 5 = 0)
    ∧ ((up.setReg Reg.FTK_CTRL 0x60).fld Reg.FTK_CTRL 6 5 = 3) := by decide +kernel

/-! ### The reset stair and the dumps -/

def stepOf (k : ResetKind) : Step := { kind := k, began := 0, frame := 4, cause := { src := 0x1C } }
theorem witness_reset_requests :
    let s : State := { up with halls := [(15, { step := some (stepOf .hall) })], dies := [(3, some (stepOf .die))] }
    s.answers = true ∧ s.inStep 15 = true ∧ s.inStep 0 = false ∧ (3 < (4 : BitVec 4).toNat) ∧ s.dieInReset 3 = true ∧ s.dieInReset 0 = false
    ∧ s.devStep = none ∧ ({ up with devStep := some (stepOf .device) } : State).devStep ≠ none ∧ ({ up with devStep := some (stepOf .device) } : State).answers = true := by
  decide +kernel
theorem witness_steps_end :
    let s (k : ResetKind) : State := { up with halls := [(15, { step := some (stepOf k) })] }
    ((s .hall).hall 15).step = some (stepOf .hall) ∧ ((s .compute).hall 15).step = some (stepOf .compute) ∧ (up.hall 15).step = none
    ∧ mapGet none ({ up with dies := [(3, some (stepOf .die))] } : State).dies 3 = some (stepOf .die)
    ∧ (let d (p : Nat) : State := { up with regs := [(8, 2 ^ 28 * BitVec.ofNat 64 p)], devStep := some (stepOf .device) }
       (d 6).devStep = some (stepOf .device) ∧ (d 6).fld Reg.DEV_BRINGUP 31 28 < 7 ∧ 7 ≤ (d 7).fld Reg.DEV_BRINGUP 31 28 ∧ (d 7).fld Reg.DEV_BRINGUP 31 28 ≠ 8)
    ∧ up.reg Reg.RST_DUMP_HOST_BYTES = 0 ∧ up.dumpCopies = [] := by decide +kernel
theorem witness_replay_limit :
    let r : Replay := { ctx := 1, running := true, startFrame := 2 }
    let s (f : Nat) : State := { up with halls := [(0, { replay := some r })], fr := { up.fr with frame := f }, clk := { up.clk with time := 1, loaded := true } }
    ((s 0).hall 0).replay = some r ∧ r.failed = none ∧ ({ r with failed := some (1, 2) } : Replay).failed ≠ none
    ∧ (s 0).frame < r.startFrame + (s 0).reg Reg.RST_REPLAY_LIMIT := by decide +kernel
theorem witness_replay_limit_reached :
    let r : Replay := { ctx := 1 }
    let s : State := { (up.setReg Reg.RST_REPLAY_LIMIT 0) with halls := [(0, { replay := some r, holder := some 1 })] }
    (s.hall 0).replay = some r ∧ r.startFrame + s.reg Reg.RST_REPLAY_LIMIT ≤ s.frame ∧ r.failed = none ∧ (s.hall 0).holder = some r.ctx
    ∧ s.cores = [] := by decide +kernel
/-- A dump of two units. -/
def aDump (n : Nat) : Dump :=
  { offset := 64, kind := 1, target := 0, serial := n, frame := 0, time := 0, timeValid := false, src := 0x4D, code := 0, records := [(1, 0, 0), (2, 3, 0)], regs := [] }
theorem witness_dumps :
    let s : State := { (up.setReg Reg.RST_DUMP_SERIAL 2).setReg Reg.RST_DUMP_HOST_BYTES 4096 |>.setReg Reg.RST_DUMP_LAST 64 with dumps := [{ aDump 1 with offset := 0 }, aDump 2], dumpCopies := [64] }
    LastDump s (2 : W32).toNat (aDump 2) ∧ ((1 : Byte).toNat, (0 : W16).toNat, 0) ∈ (aDump 2).records ∧ (∀ e ∈ s.dumps, e.serial ≠ (3 : W32).toNat)
    ∧ s.answers = true ∧ s.reg Reg.RST_DUMP_HOST_BYTES ≠ 0 ∧ (∃ e ∈ s.dumps, e.offset = 64 * bits (64 : W32).toNat 27 6)
    ∧ s.pcie.linkUp = false ∧ ({ s with pcie := { s.pcie with linkUp := true } } : State).pcie.linkUp = true
    ∧ s.dumpCopies = (aDump 2).offset :: [] ∧ s.dumps.find? (fun e => e.offset == (aDump 2).offset) = some (aDump 2) ∧ s.powerCycleCopy = false
    ∧ (∃ e ∈ s.dumps, e.offset = s.reg Reg.RST_DUMP_LAST) := by unfold LastDump; decide +kernel

/-! ### Identity, the live record and the mailbox -/

theorem witness_identity :
    let s (p : Nat) (x : Sec) : State := { State.reset with regs := [(8, 2 ^ 28 * BitVec.ofNat 64 p)], sec := x }
    (∀ p ∈ [2, 3], (s p {}).fld Reg.SEC_STATUS 9 8 = 0 ∧ (s p {}).fld Reg.DEV_BRINGUP 31 28 = p) ∧ (s 1 {}).fld Reg.DEV_BRINGUP 31 28 = 1
    ∧ (s 2 {}).sec.newest = some { valid := true, gen := 1 } ∧ (s 2 { live0 := {} }).sec.newest = none := by decide +kernel
/-- Of two seeds one at least fails its check; that the seed of the device passes it rests on constants without a value. -/
theorem witness_wrong_seed : ∃ seed : BitVec 256, sha256 (beBytes 32 seed.toNat) ≠ beBytes 32 Config.seedCheck.toNat := by
  by_cases h : sha256 (beBytes 32 (0 : BitVec 256).toNat) = beBytes 32 Config.seedCheck.toNat
  · refine ⟨1, fun h1 => ?_⟩
    exact absurd (h.trans h1.symm) (by decide +kernel)
  · exact ⟨0, h⟩
/-- A device with an identity and SEC_MB_ARG0. -/
def sealed (identity arg : Nat) (h : Hall) : State := { ((up.setFld Reg.SEC_STATUS 9 8 identity).setReg Reg.SEC_MB_ARG0 arg) with halls := [(15, h)] }
theorem witness_mailbox :
    let s := sealed 1 (0x1A090F) {}
    s.power.good = true ∧ s.sec.cmd = none ∧ s.fld Reg.SEC_STATUS 2 0 ≠ 3 ∧ s.fld Reg.SEC_STATUS 9 8 = 1 ∧ (sealed 2 0 {}).fld Reg.SEC_STATUS 9 8 ≠ 1
    ∧ bits 0x1A090F 11 8 = 9 ∧ bits 0x1A090F 20 16 = 26 ∧ bits 0x1A090F 3 0 = 15 ∧ 9 < bits 0x1A0A0F 11 8 ∧ 26 < bits 0x1B090F 20 16
    ∧ (s.hall 15).slotState 9 26 = 1 ∧ (27 * 9 + 26) ∉ (s.hall 15).marks ∧ 1 < ((sealed 1 0x1A090F { slots := [(269, 2)] }).hall 15).slotState 9 26
    ∧ ((sealed 1 0x1A090F { slots := [(269, 3)] }).hall 15).slotState 9 26 = 3
    ∧ s.reg Reg.SEC_MB_ARG0 = 0x1A090F ∧ (0x1A090F : Nat) % 4096 ≠ 0 ∧ (0x3000000 : Nat) % 4096 = 0 ∧ s.fld Reg.SEC_STATUS 6 6 = 0
    ∧ (imageOff (1 - 0) 0 ≤ 0x3000000 ∧ 0x3000000 < imageOff (1 - 0) 0 + 0x2000000) ∧ ¬ (imageOff (1 - 0) 0 ≤ 0x2FFF000) := by decide +kernel
theorem witness_mailbox_ends :
    let c (op arg code : Nat) : SecCmd := { op := op, arg0 := arg, code := code, window := List.replicate 8 1 }
    let s (i : Nat) (c : SecCmd) : State := { sealed i 0 {} with sec := { cmd := some c } }
    (∀ i ∈ [0, 1, 2], ∀ op ∈ [1, 2, 3, 4, 5], (s i (c op 0 0)).sec.cmd = some (c op 0 0) ∧ (s i (c op 0 0)).fld Reg.SEC_STATUS 9 8 = i
      ∧ (c op 0 0).code = 0 ∧ (c op 0 0).op = op ∧ (s i (c op 0 0)).sec.writing = none)
    ∧ (c 1 2 0x0900).code ≠ 0 ∧ (c 1 1 0).arg0 ≠ 0 ∧ (c 5 0 0).window ≠ [] ∧ up.sec.cmd = none
    ∧ ({ sealed 1 0 {} with sec := { cmd := some (c 3 0 0), writing := some (1, {}) } } : State).sec.writing ≠ none := by decide +kernel
theorem witness_live_write :
    (∀ ch ∈ [false, true], let x : Sec := { writing := some (1, { valid := true, gen := 2 }), changed := ch, cmd := some { op := 3, arg0 := 0 } }
      x.writing = some (1, { valid := true, gen := 2 }) ∧ x.changed = ch) ∧ up.sec.writing = none := by decide +kernel
theorem test_get_cert_busy : then_ (exec .getCert { up with sec := { cmd := some { op := 1, arg0 := 0 } } }) (fun t => t.fld Reg.SEC_STATUS 31 16) = some Code.SEC_BUSY := by
  decide +kernel

/-! ### Power, pins and bring-up -/

theorem witness_classes :
    up.ready = true ∧ 3 < bits (4 : W32).toNat 2 0 ∧ bits (3 : W32).toNat 2 0 ≤ 3 ∧ bit (up.reg Reg.FTK_CTRL) 0 = false
    ∧ bit ((up.setReg Reg.FTK_CTRL 1).reg Reg.FTK_CTRL) 0 = true ∧ up.power.good = true ∧ ({ up with power := { good := false } } : State).power.good = false
    ∧ (33 : BitVec 6).toNat ≤ 33 ∧ 33 < (34 : BitVec 6).toNat ∧ up.power.peakOver = false ∧ 3900 < (3901 : W16).toNat ∧ (3900 : W16).toNat ≤ 3900 := by decide +kernel
theorem test_class_request : then_ (exec (.classRequest 3) up) (fun t => (t.fld Reg.PWR_STATUS 2 0, t.fld Reg.PWR_STATUS 14 8)) = some (3, 16) := by decide +kernel
theorem witness_telemetry :
    let x (w v : W16) : Telemetry := { mv := 48000, watts := w, energy := 3, temps := List.replicate 30 (some v), rails := List.replicate 34 (1, 2) }
    let s (p : Power) : State := { up with power := p, clk := { up.clk with mono := 7 * 65536 * 10000001 } }
    (0 < 30 ∧ (x 0 1520).temps[0]? = some (some 1520) ∧ (95, 0x27) ∈ tempThresholds 0 ∧ 16 * (95 : Int) ≤ sext 16 (1520 : W16).toNat
      ∧ sext 16 (1440 : W16).toNat ≤ 16 * ((95 : Int) - 5))
    ∧ (∀ n ∈ List.range 30, (x 0 1359).temps[n]? = some (some 1359)) ∧ sext 16 (1359 : W16).toNat < 16 * 85
    ∧ (s {}).power.hot = [] ∧ (x 3200 0).watts.toNat ≤ 3200 - 350 * (s {}).fld Reg.PWR_STATUS 2 0 ∧ 3200 - 350 * (s {}).fld Reg.PWR_STATUS 2 0 < (x 3201 0).watts.toNat
    ∧ (s {}).power.overSince = none ∧ (s { overSince := some 0 }).power.overNoted = false ∧ 0 + 10000000 < (s { overSince := some 0 }).monoNs
    ∧ (s { overSince := some 0, overNoted := true }).power.overNoted = true := by decide +kernel
theorem witness_margins :
    let r (v : W16) : PathReading := { gallery := 159, slot := 26, slack := v, vreq := 2900 }
    let s (target : Nat) (h : Hall) : State := { (up.setReg (Reg.PWR_VCORE_PLAN 15) (2 ^ 16 * target)) with halls := [(15, h)] }
    let on : Hall := { slots := [(269, 0)] }
    up.ready = true ∧ (r 0).gallery.toNat < 160 ∧ (r 0).slot.toNat < 27
    ∧ ((s 3199 on).hall 15).slotState 9 26 = 0 ∧ (s 3199 on).inStep 15 = false ∧ ¬ ((s 3199 on).fld Reg.PWR_MARGIN_CTRL 15 8 : Int) ≤ sext 16 (r 0).slack.toNat
    ∧ ((s 3199 on).fld Reg.PWR_MARGIN_CTRL 15 8 : Int) ≤ sext 16 (r 255).slack.toNat ∧ ((s 3199 {}).hall 15).slotState 9 26 ≠ 0
    ∧ (s 3199 on).fld (Reg.PWR_VCORE_PLAN 15) 31 16 = 3199 ∧ (s 3200 on).fld (Reg.PWR_VCORE_PLAN 15) 31 16 = 3200 ∧ (27 * 9 + 26) ∉ on.marks := by decide +kernel
theorem witness_pins :
    let s (p : Power) : State := { up with power := p }
    (s { en := false, good := false }).power.en = false ∧ (s { good := false, ramping := true }).power.ramping = true ∧ up.power.ramping = false ∧ up.power.en = true := by
  decide +kernel
theorem witness_cables :
    (cabled.cable 0).present = true ∧ (cabled.cable 3).present = false ∧ (1 : BitVec 2).toNat < 2 ∧ (cabled.cable 0).vcbl = true ∧ (cabled.cable 3).vcbl = false
    ∧ ((portIn 3 {}).portUp 0 = true ∧ 1 ≤ (portIn 3 {}).portState 0 ∧ (portIn 3 {}).portState 0 ≤ 4) ∧ (portIn 5 {}).portState 0 = 5 := by decide +kernel
/-- A device in a phase of bring-up. -/
def inPhase (p : Nat) (b : Bring) (l : List (Nat × W64)) : State := { State.reset with regs := (8, 2 ^ 28 * BitVec.ofNat 64 p) :: l, bring := b }
theorem witness_phases : (∀ p ∈ [0, 1, 2, 3, 4, 5, 6, 7], (inPhase p {} []).phase = p) ∧ (inPhase 2 {} []).power.good = true := by decide +kernel
def inIdentity : State := inPhase 3 {} []
/-- A device whose flash holds 0 where the factory part and the image headers stand. -/
def blank (s : State) : State :=
  { s with sec := { s.sec with flash := [(0, [0])] ++ ((List.range 2).flatMap fun b => (List.range 4).map fun k => (imageOff b k / 4096, [0])) } }
/-- The results of the phases that stop boot, and those that do not name an image. That an image or the factory part verifies rests on
the root key hash and the flash, which are constants without a value. -/
theorem witness_phase_results :
    (inPhase 2 {} []).bring.hbmDone = false ∧ inIdentity.bring.identityDone = false
    ∧ (blank (inPhase 0 {} [])).imageCode 0 0 ≠ 0 ∧ (blank (inPhase 0 {} [])).imageCode 1 0 ≠ 0 ∧ (blank (inPhase 1 {} [])).factoryOk = false
    ∧ (blank (inPhase 1 {} [])).phase = 1
    ∧ ([1, 2, 3].map ((blank (inPhase 1 {} [])).imageCode (blank (inPhase 1 {} [])).bank)).find? (fun c => decide (c ≠ 0)) = some Code.IMAGE_FORMAT := by
  decide +kernel
theorem witness_identity_done : (inIdentity.setFld Reg.SEC_STATUS 9 8 1).fld Reg.SEC_STATUS 9 8 = 1 ∧ inIdentity.phase = 3 := by decide +kernel
def answering : State := (inPhase 6 {} []).setReg Reg.DEV_HALL_ONLINE 0xFFFF
theorem witness_known_answers :
    (inPhase 6 {} []).online 15 = false ∧ hallOf 79 49 = 15 ∧ answering.online 15 = true ∧ answering.bring.katRuns = 0 ∧ answering.phase = 6
    ∧ (inPhase 6 {} []).katOver = true ∧ (inPhase 6 {} []).power.good = true := by decide +kernel
/-- A known-answer run that has not begun, and one that has ended on every hall. -/
theorem witness_known_answer_runs :
    answering.katOver = false ∧ answering.power.good = true
    ∧ (answering.katRun.zipIdx.find? fun e => e.1.1 == 15) = some ((15, 0), 15) ∧ katUnit answering.katRun.length 15 0 = some (false, 0, 0)
    ∧ ({ answering with bring := { answering.bring with katUnits := (List.range 16).map fun h => (h, 128) } } : State).katOver = true := by decide +kernel
theorem witness_known_answer_slot : (answering.hall 15).slotOf (galleryOf 79 49 % 10) (posOf 79 49) < 27 := by decide +kernel
theorem test_rom_both_banks_fail : then_ (exec (.bringupPhaseEnd .rom) (inPhase 0 {} [] |> blank)) (fun t => (t.phase, t.fld Reg.SEC_STATUS 31 16))
    = some (8, Code.IMAGE_FORMAT) := by decide +kernel

/-! ### The block as a whole -/

theorem witness_step : ({ up with pending := [.halt c00] } : State).pending = .halt c00 :: [] ∧ up.pending = [] ∧ up.clk.loaded = false ∧ (timed .locked).clk.loaded = true := by
  decide +kernel
theorem reset_inv : Claims.Inv State.reset := by unfold Claims.Inv; decide
theorem inv_with_memory : Claims.Inv { up with mem := { cells := [(0, 1), (2 ^ 40 - 1, 255), (2 ^ 41, 7)] } } := by unfold Claims.Inv; decide +kernel
theorem not_inv : ¬ Claims.Inv { up with mem := { cells := [(0, 0)] } } := by unfold Claims.Inv; decide +kernel
theorem test_idle : then_ (step State.reset) (fun t => t.clk.mono) = some (4 * 65536) := by decide +kernel
theorem test_first_command : then_ (step { State.reset with pending := [.halt c00, .halt c00] }) (fun t => t.pending) = some [.halt c00] := by decide +kernel
theorem test_no_table_bits : decodeTableWord 32 0 = none := rfl

end Sys2Proof.Tests
end

section
/-! SUPPORT. What the sequencer and the array unit keep and change, and with it what ARRAY_MATMUL and RAMP_DOWN_END do. -/
open Sys2Proof Sys2Proof.Machine Sys2Proof.Claims
namespace Sys2Proof.Machine

/-! ### One sequencer changed -/

@[simp] theorem State.core_onSeq_same (s : State) (n : Nat) (f : Seq → Seq) :
    (s.onSeq n f).core n = { s.core n with seq := f (s.core n).seq } := by simp [State.core_onSeq]

@[simp] theorem State.cp_onSeq (s : State) (n m : Nat) (f : Seq → Seq) : ((s.onSeq n f).core m).cp = (s.core m).cp := by
  rw [State.core_onSeq]; split
  · subst_vars; rfl
  · rfl

/-- The two states differ at most in the sequencer of core `n` and in the number of free values drawn. -/
structure OnlySeq (s t : State) (n : Nat) : Prop where
  rest : t = { s with free := t.free, cores := t.cores }
  others : ∀ m, m ≠ n → t.core m = s.core m
  cp : (t.core n).cp = (s.core n).cp

namespace OnlySeq

theorem refl (s : State) (n : Nat) : OnlySeq s s n := ⟨rfl, fun _ _ => rfl, rfl⟩

theorem trans {r s t : State} {n : Nat} (h : OnlySeq r s n) (k : OnlySeq s t n) : OnlySeq r t n where
  rest := by rw [k.rest, h.rest]
  others m hm := (k.others m hm).trans (h.others m hm)
  cp := k.cp.trans h.cp

theorem onSeq {r s : State} {n : Nat} (h : OnlySeq r s n) (f : Seq → Seq) : OnlySeq r (s.onSeq n f) n :=
  h.trans ⟨rfl, fun m hm => by simp [State.core_onSeq, hm], by simp⟩

theorem settle {r s : State} {n : Nat} (h : OnlySeq r s n) : OnlySeq r (s.settle n) n := h.onSeq _

theorem free {r s : State} {n : Nat} (h : OnlySeq r s n) (f : Nat) : OnlySeq r { s with free := f } n :=
  h.trans ⟨rfl, fun _ _ => rfl, rfl⟩

theorem drawMore {r s : State} {n : Nat} (h : OnlySeq r s n) (unit : Nat) (x : Run) (calls : Nat) :
    OnlySeq r (s.drawMore n unit x calls) n := by
  unfold State.drawMore
  split
  · exact h
  · exact h.onSeq _

theorem mem {s t : State} {n : Nat} (h : OnlySeq s t n) : t.mem = s.mem := by rw [h.rest]

theorem noErrors {s t : State} {n : Nat} (h : OnlySeq s t n) (he : NoErrors s) : NoErrors t := by
  unfold NoErrors; rw [h.mem]; exact he

theorem onlyCore {s t : State} {n : Nat} (h : OnlySeq s t n) : OnlyCore { s with free := t.free } t n := ⟨h.rest, h.others⟩

end OnlySeq

/-! ### The checks and the sample of an issue see no sequencer -/

@[simp] theorem State.descOf_onSeq (s : State) (n m : Nat) (f : Seq → Seq) : (s.onSeq n f).descOf m = s.descOf m := by
  funext i; simp only [State.descOf, State.cp_onSeq]

@[simp] theorem State.issueCheck_onSeq (s : State) (n m st : Nat) (f : Seq → Seq) :
    (s.onSeq n f).issueCheck m st = s.issueCheck m st := by
  unfold State.issueCheck
  rw [State.descOf_onSeq]
  rfl

@[simp] theorem State.sample_onSeq (s : State) (n m : Nat) (e : Entry) (f : Seq → Seq) :
    (s.onSeq n f).sample m e = s.sample m e := by
  simp only [State.sample, State.frame, State.cp_onSeq, State.onSeq_reg, State.onSeq_holderOf, State.onSeq_ctx]

theorem State.st_sample (s : State) (n : Nat) (e : Entry) : (s.sample n e).st = e.step.toNat := rfl

/-! ### Units and queues of a sequencer -/

theorem Seq.unit_setUnit (q : Seq) (u v : UnitName) (x : UnitState) :
    (q.setUnit u x).unit v = if v = u then x else q.unit v := by
  cases u <;> cases v <;> rfl

@[simp] theorem Seq.unit_setUnit_same (q : Seq) (u : UnitName) (x : UnitState) : (q.setUnit u x).unit u = x := by
  simp [Seq.unit_setUnit]

@[simp] theorem Seq.tok_setUnit (q : Seq) (u : UnitName) (x : UnitState) : (q.setUnit u x).tok = q.tok := by cases u <;> rfl

@[simp] theorem Seq.wideHeld_setUnit (q : Seq) (u : UnitName) (x : UnitState) : (q.setUnit u x).wideHeld = q.wideHeld := by
  cases u <;> rfl

@[simp] theorem Seq.unit_setQueue (q : Seq) (k : Queue) (w : SeqQueue) (u : UnitName) : (q.setQueue k w).unit u = q.unit u := by
  cases k <;> cases u <;> rfl

@[simp] theorem Seq.tok_setQueue (q : Seq) (k : Queue) (w : SeqQueue) : (q.setQueue k w).tok = q.tok := by cases k <;> rfl

@[simp] theorem UnitState.of_setOf_same (x : UnitState) (k : Queue) (r : Option Run) : (x.setOf k r).of k = r := by cases k <;> rfl

/-- A unit that holds a busy step has an iteration in progress. -/
theorem UnitState.running_isSome_of_busy {x : UnitState} {k : Queue} {r : Run} (h : x.of k = some r) (hb : r.busy = true) :
    x.running.isSome = true := by
  cases k with
  | main =>
    have hc : x.cur = some r := h
    simp [UnitState.running, hc, hb]
  | idle =>
    have hc : x.idleCur = some r := h
    unfold UnitState.running
    rw [hc]
    cases x.cur with
    | none => simp [hb]
    | some p => by_cases hp : p.busy = true <;> simp [hp, hb]

/-! ### Dispatch (R247) -/

/-- The token counters and the steps that the units have started are the same. -/
structure Seq.SameWork (q q' : Seq) : Prop where
  tok : q'.tok = q.tok
  of : ∀ u k, (q'.unit u).of k = (q.unit u).of k

namespace Seq.SameWork

theorem refl (q : Seq) : SameWork q q := ⟨rfl, fun _ _ => rfl⟩

theorem trans {a b c : Seq} (h : SameWork a b) (k : SameWork b c) : SameWork a c :=
  ⟨k.tok.trans h.tok, fun u i => (k.of u i).trans (h.of u i)⟩

/-- A change of what waits in a unit. -/
theorem setWaiting (q : Seq) (u : UnitName) (l : List Entry) : SameWork q (q.setUnit u { q.unit u with waiting := l }) where
  tok := Seq.tok_setUnit _ _ _
  of v k := by
    rw [Seq.unit_setUnit]; split
    · subst_vars; cases k <;> rfl
    · rfl

theorem setQueue (q : Seq) (k : Queue) (w : SeqQueue) : SameWork q (q.setQueue k w) := ⟨by simp, fun _ _ => by simp⟩

/-- A step put into the queue of a unit, while the unit has room. -/
theorem put (q : Seq) (k : Queue) (u : UnitName) (c : Prop) [Decidable c] (l : List Entry) (w : SeqQueue) :
    SameWork q (if c then q else (q.setUnit u { q.unit u with waiting := l }).setQueue k w) := by
  split
  · exact refl q
  · exact (setWaiting q u l).trans (setQueue _ k w)

theorem dispatch1 (q : Seq) (k : Queue) : SameWork q (q.dispatch1 k) := by
  unfold Seq.dispatch1
  rcases q.front k with - | ⟨slot, st⟩
  · exact refl q
  · generalize (if k = .main then 4 else 2) = room
    dsimp only
    split
    · exact put q k .array _ _ _
    · exact put q k .vector _ _ _
    · exact put q k .mover _ _ _
    · exact put q k .mesh _ _ _
    · exact refl q

theorem idleDone (q : Seq) : SameWork q q.idleDone := by
  unfold Seq.idleDone
  split
  · exact ⟨rfl, fun u _ => by cases u <;> rfl⟩
  · exact refl q

theorem dispatch (q : Seq) : SameWork q q.dispatch := by
  have fold (l : List Nat) (p : Seq) : SameWork p (l.foldl (fun q _ => (q.dispatch1 .main).dispatch1 .idle) p) := by
    induction l generalizing p with
    | nil => exact refl p
    | cons _ _ ih => exact ((dispatch1 p .main).trans (dispatch1 _ .idle)).trans (ih _)
  exact (fold _ q).trans (idleDone _)

end Seq.SameWork

/-! ### Tokens (R252) -/

/-- The counters of a list, each named once, consumed one after the other. -/
theorem tokOf_foldl_consume (w : W32) (l : List Nat) (hl : l.Nodup) (q : Seq) :
    ∃ m, l.foldl (fun q n => { q with tok := mapSet 0 q.tok n (q.tokOf n - w) }) q = { q with tok := m }
      ∧ ∀ c, mapGet 0 m c = if c ∈ l then q.tokOf c - w else q.tokOf c := by
  induction l generalizing q with
  | nil => exact ⟨q.tok, rfl, fun c => by simp [Seq.tokOf]⟩
  | cons a l ih =>
    obtain ⟨ha, hl⟩ := List.nodup_cons.mp hl
    obtain ⟨m, hm, hget⟩ := ih hl { q with tok := mapSet 0 q.tok a (q.tokOf a - w) }
    refine ⟨m, hm, fun c => ?_⟩
    rw [hget c]
    by_cases hc : c = a
    · subst hc; simp [Seq.tokOf, ha]
    · simp [Seq.tokOf, hc, mapGet_mapSet_other _ _ _ _ hc]

theorem mem_bitsOf (v n c : Nat) : c ∈ bitsOf v n ↔ c < n ∧ bit v c = true := by simp [bitsOf, bit]

/-- The start of an iteration takes from the counters what its wait takes, and changes nothing else of the sequencer. -/
theorem Seq.consume_eq (q : Seq) (st : Nat) :
    ∃ m, q.consume st = { q with tok := m } ∧ ∀ c, c < 16 → mapGet 0 m c = q.tokOf c - BitVec.ofNat 32 (taken st c) := by
  unfold Seq.consume
  split
  · obtain ⟨m, hm, hget⟩ := tokOf_foldl_consume (BitVec.ofNat 32 (stWaitN st)) (bitsOf (stMask st) 16)
      (List.nodup_range.filter _) q
    refine ⟨m, hm, fun c hc => ?_⟩
    rw [hget c]
    simp only [mem_bitsOf, taken, hc, true_and, ‹stConsume st = true›]
    split <;> simp
  · exact ⟨q.tok, rfl, fun c _ => by simp [taken, Seq.tokOf, *]⟩

theorem Seq.tokOf_consume (q : Seq) (st c : Nat) (hc : c < 16) :
    (q.consume st).tokOf c = q.tokOf c - BitVec.ofNat 32 (taken st c) := by
  obtain ⟨m, hm, hget⟩ := q.consume_eq st
  rw [hm]; exact hget c hc

@[simp] theorem Seq.array_consume (q : Seq) (st : Nat) : (q.consume st).array = q.array := by
  obtain ⟨m, hm, -⟩ := q.consume_eq st; rw [hm]

@[simp] theorem Seq.wideHeld_consume (q : Seq) (st : Nat) : (q.consume st).wideHeld = q.wideHeld := by
  obtain ⟨m, hm, -⟩ := q.consume_eq st; rw [hm]

/-! ### The start of an iteration (R248, R253) -/

/-- The state in which an iteration that begins is computed. -/
theorem start_of_begins {s s0 : State} {n : Nat} {u : UnitName} {q : Queue} {op : Nat} {r : Run} (h : Begins s n u q op s0 r) :
    OnlySeq s s0 n ∧ Consumed s s0 n r.st ∧ (s0.core n).seq.wideHeld = (s.core n).seq.wideHeld := by
  obtain ⟨-, -, -, -, ⟨-, rfl⟩ | ⟨-, e, -, -, -, rfl⟩⟩ := h
  · refine ⟨(OnlySeq.refl s n).onSeq _, fun c hc => ?_, by simp⟩
    simp [Seq.tokOf_consume _ _ _ hc]
  · refine ⟨((OnlySeq.refl s n).onSeq _).onSeq _, fun c hc => ?_, by simp⟩
    rw [State.core_onSeq_same, State.core_onSeq_same, Seq.tokOf_consume _ _ _ hc]
    simp [Seq.tokOf]

/-- The state with a computed iteration in progress in its unit, and what can be dispatched dispatched. -/
def State.started (s : State) (n : Nat) (u : UnitName) (q : Queue) (r : Run) : State :=
  (s.onSeq n fun y => y.setUnit u ((y.unit u).setOf q (some { r with busy := true }))).settle n

theorem State.onlySeq_started (s : State) (n : Nat) (u : UnitName) (q : Queue) (r : Run) : OnlySeq s (s.started n u q r) n :=
  ((OnlySeq.refl s n).onSeq _).settle

theorem State.inProgress_started (s : State) (n : Nat) (u : UnitName) (q : Queue) (r : Run) :
    InProgress (s.started n u q r) n u q { r with busy := true } := by
  refine ⟨?_, rfl⟩
  simp only [State.started, State.settle, State.core_onSeq_same, (Seq.SameWork.dispatch _).of, Seq.unit_setUnit_same,
    UnitState.of_setOf_same]

theorem State.tok_started (s : State) (n : Nat) (u : UnitName) (q : Queue) (r : Run) :
    ((s.started n u q r).core n).seq.tok = (s.core n).seq.tok := by
  simp only [State.started, State.settle, State.core_onSeq_same, (Seq.SameWork.dispatch _).tok, Seq.tok_setUnit]

/-- An iteration that may start and whose results are computed is in progress in its unit. -/
theorem startIter_of_begins {s s0 s1 : State} {n : Nat} {u : UnitName} {q : Queue} {op : Nat} {r r1 : Run}
    {compute : State → Run → State × Option Run} (h : Begins s n u q op s0 r) (hc : compute s0 r = (s1, some r1)) :
    s.startIter n u q op compute = s1.started n u q r1 := by
  obtain ⟨hmay, hwait, hop, hrank, ⟨hof, rfl⟩ | ⟨hof, e, hfind, hcheck, rfl, rfl⟩⟩ := h
  · simp only [Run.st] at hwait hop hrank hc
    simp [State.startIter, State.started, UnitState.candidate, hof, hmay, hwait, hop, hrank, hc]
  · rw [State.st_sample] at hwait hop hrank hc
    simp [State.startIter, State.started, UnitState.candidate, hof, hfind, hmay, hwait, hop, hrank, hcheck, hc]

/-! ### The values of an ARRAY iteration -/

/-- What an ARRAY iteration sees of memory: the writes of the one that it joins are already there. -/
def State.seenAfter (s : State) : Option Run → State
  | some p => (s.writeList p.wide).writeList p.writes
  | none => s

@[simp] theorem State.seenAfter_none (s : State) : s.seenAfter none = s := rfl

/-- The wide-buffer bytes that another write than that of the joined iteration has changed. -/
def State.brokenAfter (s : State) (n : Nat) (prev : Option Run) : List Nat :=
  (s.seenAfter prev).changed ((s.core n).seq.wideHeld.filter fun e => !((prev.map (·.wide)).getD []).any fun w => w.1 == e.1)

/-- An ARRAY iteration with the results of its block-passes, as `State.arrayIter` records them. -/
def Run.folded (r : Run) (seen : State) (f : Folded) (first : Nat) : Run :=
  { r with
    busy := true, writes := f.drains.flatten, wide := f.merges.flatten, drains := f.drains, merges := f.merges, accs := f.accs
    was := f.merges.flatten.map fun e => (e.1, seen.byte e.1), overflow := f.overflow, nan := f.nan, inf := f.inf, first := first }

/-- The state after an ARRAY iteration has been computed: its draws, and the free values that its outputs may take. -/
def State.drawnFor (s : State) (n : Nat) (r : Run) (f : Folded) : State :=
  { s.drawMore n 0 r f.calls with free := (s.drawMore n 0 r f.calls).free + (stM r.st * stN r.st + 2 * stM r.st) }

/-- Without an error in memory an ARRAY iteration reads nothing uncorrectable. -/
theorem State.arrayIter_of_noErrors {s : State} (h : NoErrors s) (n : Nat) (prev : Option Run) (first : Nat) (r : Run) :
    let f := (s.seenAfter prev).arrayValues n r [] (s.brokenAfter n prev)
    s.arrayIter n prev first r = (s.drawnFor n r f, some (r.folded (s.seenAfter prev) f first)) := by
  have he : s.mem.ecc = [] := h
  cases prev <;> simp only [State.arrayIter, he] <;> rfl

theorem State.brokenAfter_none (s : State) (n : Nat) : s.brokenAfter n none = s.changed (s.core n).seq.wideHeld := by
  have hall : ((s.core n).seq.wideHeld.filter fun e => !([] : List (Nat × Byte)).any fun w => w.1 == e.1) = (s.core n).seq.wideHeld :=
    List.filter_eq_self.mpr fun _ _ => rfl
  exact congrArg s.changed hall

theorem State.drawnFor_onlySeq (s : State) (n : Nat) (r : Run) (f : Folded) : OnlySeq s (s.drawnFor n r f) n :=
  ((OnlySeq.refl s n).drawMore 0 r f.calls).free _

/-- The draws of an iteration change the draw indices of the sequencer and nothing else of it. -/
theorem State.seq_drawnFor (s : State) (n : Nat) (r : Run) (f : Folded) :
    ∃ d, ((s.drawnFor n r f).core n).seq = { (s.core n).seq with draws := d } := by
  have hd : ∃ d, ((s.drawMore n 0 r f.calls).core n).seq = { (s.core n).seq with draws := d } := by
    unfold State.drawMore
    split
    · exact ⟨_, rfl⟩
    · exact ⟨_, by rw [State.core_onSeq_same]⟩
  exact hd

/-! ### The schedule of joined iterations (R132, R135) -/

theorem le_of_mem_startsFrom {e : Nat × Chunk} {t : Nat} {l : List Chunk} (h : e ∈ startsFrom t l) : t ≤ e.1 := by
  induction l generalizing t with
  | nil => cases h
  | cons c l ih =>
    rcases List.mem_cons.mp h with rfl | h
    · exact Nat.le_refl t
    · exact Nat.le_trans (Nat.le_add_right t c.len) (ih h)

/-- An iteration that joins a schedule streams no earlier than the iteration in progress began. -/
theorem le_joinFrom (t : Nat) (l : List Chunk) (w : Nat) : t ≤ joinFrom t l w := by
  unfold joinFrom
  split
  · next u c hlast =>
    have hu : t ≤ u := le_of_mem_startsFrom (List.mem_of_getLast? hlast)
    omega
  · exact Nat.le_refl t

/-! ### ARRAY_MATMUL by the state of the ramp (R138, R135, R141) -/

/-- An iteration joins the schedule of the one in progress: what changes but for the unit's overlapping iteration are token
counters, draw indices and the number of free values. -/
theorem State.joinArray_of_noErrors {s : State} (h : NoErrors s) (n : Nat) (p r : Run) :
    ∃ r', ((s.joinArray n p r).core n).seq.array = { (s.core n).seq.array with overlap := some r' }
      ∧ r'.entry = r.entry ∧ r'.iter = r.iter ∧ r'.busy = true ∧ p.first ≤ r'.first
      ∧ OnlySeq s (s.joinArray n p r) n ∧ Consumed s (s.joinArray n p r) n r.st := by
  have h1 : OnlySeq s (s.drawn.onSeq n (·.consume r.st)) n := ((OnlySeq.refl s n).free _).onSeq _
  have htok : Consumed s (s.drawn.onSeq n (·.consume r.st)) n r.st := fun c hc => by simp [Seq.tokOf_consume _ _ _ hc]
  have harray : ((s.drawn.onSeq n (·.consume r.st)).core n).seq.array = (s.core n).seq.array := by simp
  unfold State.joinArray
  generalize s.drawn.onSeq n (·.consume r.st) = s1 at h1 htok harray ⊢
  generalize hfirst : joinFrom p.first p.chunks (s.joinCycle n p) = first
  have hle : p.first ≤ first := hfirst ▸ le_joinFrom ..
  generalize hf : (s1.seenAfter (some p)).arrayValues n r [] (s1.brokenAfter n (some p)) = f
  have hi : s1.arrayIter n (some p) first r = (s1.drawnFor n r f, some (r.folded (s1.seenAfter (some p)) f first)) := by
    rw [State.arrayIter_of_noErrors (h1.noErrors h), hf]
  obtain ⟨d, hd⟩ := s1.seq_drawnFor n r f
  simp only [hi]
  refine ⟨r.folded (s1.seenAfter (some p)) f first, ?_, rfl, rfl, rfl, hle,
    (h1.trans (s1.drawnFor_onlySeq n r f)).onSeq _, fun c hc => ?_⟩
  · simp only [State.core_onSeq_same, hd, harray]
  · rw [← htok c hc]
    simp only [State.core_onSeq_same, hd, Seq.tokOf]

/-- From idle arrays the iteration that starts begins a ramp-up. -/
theorem execArrayMatmul_of_idle {s : State} {core : Coord} {q : Queue} (hr : (s.core (coreNo core)).seq.ramp = .idle)
    {s' : State} (hs : s.startIter (coreNo core) .array q 1 (fun s r => s.arrayIter (coreNo core) none 16 r) = s')
    (hb : (s'.core (coreNo core)).seq.array.running.isSome = true) :
    execArrayMatmul core q s = .next (s'.onSeq (coreNo core) fun x =>
      { x with ramp := .active (s.fld Reg.FTK_RAMP 6 0) (s.fld Reg.PWR_STATUS 14 8), cycle := 0 }) := by
  subst hs
  simp only [execArrayMatmul, hr, hb, if_true]

/-- During a ramp-down nothing issues. -/
theorem execArrayMatmul_of_down {s : State} {core : Coord} (q : Queue) {level : Nat}
    (hr : (s.core (coreNo core)).seq.ramp = .down level) : execArrayMatmul core q s = .next s := by
  simp only [execArrayMatmul, hr]

/-- While an iteration that is not the last of its step is in progress, the next one of the step joins its schedule. -/
theorem execArrayMatmul_of_next {s : State} {core : Coord} {q : Queue} {top duty : Nat} {p : Run}
    (hr : (s.core (coreNo core)).seq.ramp = .active top duty) (hp : (s.core (coreNo core)).seq.array.running = some p)
    (ho : (s.core (coreNo core)).seq.array.overlap = none) (hq : p.entry.queue = q) (hl : p.last = false) (hc : p.cut = false)
    (hw : (s.core (coreNo core)).seq.waitHolds p.next.st = true)
    (hk : (s.core (coreNo core)).seq.outranked (unitRank q .array) p.next.st = false)
    (hm : q = .main ∨ (s.core (coreNo core)).seq.array.waiting.any
      (fun e => decide (e.queue = .main) && (s.core (coreNo core)).seq.waitHolds e.step.toNat) = false) :
    execArrayMatmul core q s = .next (s.joinArray (coreNo core) p p.next) := by
  have hcand : (s.core (coreNo core)).seq.array.overlapCandidate q = some (.inl p.next) := by
    simp [UnitState.overlapCandidate, hp, ho, hq, hl, hc]
  have hmain : ¬ (q = .idle ∧ (s.core (coreNo core)).seq.array.waiting.any
      (fun e => decide (e.queue = .main) && (s.core (coreNo core)).seq.waitHolds e.step.toNat) = true) := by
    rintro ⟨rfl, hany⟩
    rcases hm with hm | hm
    · cases hm
    · rw [hm] at hany; cases hany
  simp only [execArrayMatmul, hr, hp, hcand, if_neg hmain, hw, hk, Bool.false_eq_true, not_false_eq_true, and_self, if_true]

/-! ### RAMP_DOWN_END (R140, R141) -/

theorem execRampDownEnd_of_down {s : State} {core : Coord} {level : Nat} (hr : (s.core (coreNo core)).seq.ramp = .down level) :
    execRampDownEnd core s = .next (s.onSeq (coreNo core) fun q =>
      { q with ramp := .idle, cycle := 0, occupied := q.occupied + level }) := by
  simp only [execRampDownEnd, hr]

theorem execRampDownEnd_of_not_down {s : State} {core : Coord}
    (hr : ∀ level, (s.core (coreNo core)).seq.ramp ≠ .down level) : execRampDownEnd core s = .next s := by
  unfold execRampDownEnd
  cases h : (s.core (coreNo core)).seq.ramp with
  | idle => simp only [h]
  | active => simp only [h]
  | down level => exact absurd h (hr level)

/-! ### The statement -/

/-- ARRAY_MATMUL from idle arrays: the iteration is in progress and the arrays ramp up (R138). -/
theorem arrayMatmul_from_idle {s s0 : State} {core : Coord} {q : Queue} {r0 : Run} (he : NoErrors s)
    (hr : (s.core (coreNo core)).seq.ramp = .idle) (hb : Begins s (coreNo core) .array q 1 s0 r0) :
    ∃ t, exec (.arrayMatmul core q) s = .next t
      ∧ InProgress t (coreNo core) .array q (r0.folded s0
          (s0.arrayValues (coreNo core) r0 [] (s0.changed (s.core (coreNo core)).seq.wideHeld)) 16)
      ∧ (t.core (coreNo core)).seq.ramp = .active (s.fld Reg.FTK_RAMP 6 0) (s.fld Reg.PWR_STATUS 14 8)
      ∧ (t.core (coreNo core)).seq.cycle = 0 ∧ OnlySeq s t (coreNo core) ∧ Consumed s t (coreNo core) r0.st := by
  generalize hn : coreNo core = n at *
  obtain ⟨h0, htok, hheld⟩ := start_of_begins hb
  have he0 : NoErrors s0 := h0.noErrors he
  generalize hf : s0.arrayValues n r0 [] (s0.changed (s.core n).seq.wideHeld) = f
  have hi : s0.arrayIter n none 16 r0 = (s0.drawnFor n r0 f, some (r0.folded s0 f 16)) := by
    rw [State.arrayIter_of_noErrors he0, State.brokenAfter_none, hheld, State.seenAfter_none, hf]
  have hs := startIter_of_begins (compute := fun s r => s.arrayIter n none 16 r) hb hi
  have hprog := (s0.drawnFor n r0 f).inProgress_started n .array q (r0.folded s0 f 16)
  have hex := execArrayMatmul_of_idle (hn ▸ hr) (hn ▸ hs) (hn ▸ UnitState.running_isSome_of_busy hprog.1 rfl)
  rw [hn] at hex
  refine ⟨_, hex, ⟨?_, rfl⟩, by simp, by simp,
    ((h0.trans (s0.drawnFor_onlySeq n r0 f)).trans (State.onlySeq_started ..)).onSeq _, fun c hc => ?_⟩
  · rw [State.core_onSeq_same]; exact hprog.1
  · obtain ⟨d, hd⟩ := s0.seq_drawnFor n r0 f
    rw [← htok c hc, State.core_onSeq_same]
    simp only [Seq.tokOf, State.tok_started, hd]

/-- Settles O27: ARRAY_MATMUL by the state of the ramp, and the end of a ramp-down. -/
theorem arrayStepsIssueAndRamp : Obligations.ArrayStepsIssueAndRamp := by
  unfold Obligations.ArrayStepsIssueAndRamp
  intro s core q
  refine ⟨fun s0 r0 he hr hb => ?_, fun top duty p he hr hp ho hq hl hc hw hk hm => ?_,
    fun level hr => execArrayMatmul_of_down q hr, fun level hr => ?_, fun hr => ?_⟩
  · obtain ⟨t, hex, hprog, hramp, hcycle, honly, htok⟩ := arrayMatmul_from_idle he hr hb
    exact ⟨t, _, hex, hprog, hramp, hcycle, rfl, rfl, rfl, rfl, rfl, honly.onlyCore, honly.cp, htok⟩
  · obtain ⟨r, harray, hentry, hiter, hbusy, hfirst, honly, htok⟩ := State.joinArray_of_noErrors he (coreNo core) p p.next
    refine ⟨_, r, execArrayMatmul_of_next hr hp ho hq hl hc hw hk hm, ?_, hentry, hiter, hbusy, hfirst, ?_,
      honly.onlyCore, honly.cp, htok⟩
    · rw [harray]
    · rw [harray]; exact hp
  · refine ⟨_, execRampDownEnd_of_down hr, ?_, State.core_onSeq_same ..⟩
    exact ⟨rfl, ((OnlySeq.refl s _).onSeq _).others⟩
  · exact execRampDownEnd_of_not_down hr

end Sys2Proof.Machine
end
